-- ==== Sys2Proof/Word.lean ====
section
/-!
DEFINITION. The vocabulary of the rt_sccb engine: levels, bytes, addresses and words (rule R9), the line
operations and the trace alphabet (R10), the patterns (R12), the names held in the sequencer position (R27),
the result codes (R76), the two kinds of row of the transaction step tables (R120, R121), the code spaces
(R73, R77, R78) and the moves of the agents (R7, R145).
-/

namespace Sys2Proof

/-- A level of a line, and any one-bit flag. `true` is `high` and 1, `false` is `low` and 0 (R9, R92). -/
abbrev Level := Bool

/-- `high`, as a number 1 (R9). -/
abbrev high : Level := true

/-- `low`, as a number 0 (R9). -/
abbrev low : Level := false

/-- A data byte or register address: 8 bits, unsigned (R8, R51). -/
abbrev Byte := BitVec 8

/-- A device address: 7 bits, unsigned (R8, R51). -/
abbrev DevAddr := BitVec 7

/-- A host command word `CW` (R73). -/
abbrev CommandWord := BitVec 32

/-- A result word `RW` (R76). -/
abbrev ResultWord := BitVec 32

/-- The width `TW` of the timeout, at its default (R8). -/
abbrev TW : Nat := 32

/-- A timeout value in platform time units (R33). -/
abbrev Timeout := BitVec TW

/-- The four line operations of the Line Driver (R10, R78). -/
inductive LineOp where
  | setc (l : Level)
  | setd (l : Level)
  | getd
  | dly
  deriving DecidableEq, Repr

/-- The trace tokens `C l`, `D l`, `G=r` and `T` (R10). -/
inductive Token where
  | c (l : Level)
  | d (l : Level)
  | g (r : Level)
  | t
  deriving DecidableEq, Repr

/-- The two patterns on the lines (R12). -/
inductive Pattern where
  | start
  | stop
  deriving DecidableEq, Repr

/-- The primitive selector `PRIM` of the sequencer position (R27, R77). -/
inductive PrimSel where
  /-- `NONE`: a bare `DLY`, the release step, or idle. -/
  | nothing
  | start
  | stop
  | noack
  | wrbyte
  | rdbyte
  deriving DecidableEq, Repr

/-- `CMDK`, the kind of the transaction in flight (R27). -/
inductive CmdK where
  | idle
  | wrreg
  | rdreg
  deriving DecidableEq, Repr

/-- What one transaction step `TSTEP` does (R120, R121): call a primitive, wait once, or release. -/
inductive StepKind where
  | call (p : PrimSel)
  | delay
  | release
  deriving DecidableEq, Repr

/-- The result codes 0 to 4 of a result word (R76, R150). -/
inductive ResultCode where
  | ok
  | deviceNotFound
  | busNotFound
  | registrationConflict
  | illegalCommand
  deriving DecidableEq, Repr

/-- A code word together with the code space it belongs to: a host command word (R73), a primitive select
code (R77) or a line-operation word (R78). The three spaces are carried by different ports and registers, so
equal bits in two of them are different codes. -/
inductive CodeWord where
  | cmd (w : BitVec 32)
  | prim (c : BitVec 3)
  | lop (c : BitVec 3)
  deriving DecidableEq, Repr

/-- Why a code word decodes to nothing (R79). -/
inductive DecodeError where
  /-- A command word that matches no row of R75. -/
  | illegalCommand
  /-- `PRIM` code `0b000` (`NONE`), `0b110` or `0b111`. -/
  | noPrimitive
  /-- `LOP` code `0b101` or `0b111`. -/
  | noLineOperation
  deriving DecidableEq, Repr

/-- One row of `spec/opcode_table.json`: the mnemonic, and the match and mask of its code space. -/
structure OpcodeRow where
  mnemonic : String
  pattern  : CodeWord
  mask     : CodeWord
  deriving DecidableEq, Repr

/-- One atomic move of one agent (R7, R28, R141, R145). The engine may be moved at the grain of any of its
three layers (R2): by line operation, by primitive, or by whole command. -/
inductive Move where
  /-- Requester `p` posts a command word (R145). -/
  | post (p : Nat) (cw : BitVec 32)
  /-- Requester `p` takes its result word (R145). -/
  | take (p : Nat)
  /-- The platform presents a value on `CFG_TIMEOUT` (R39, R172). -/
  | present (v : BitVec 32)
  /-- The posted command of requester `p` is classified: refused, executed if it is `INIT`, or granted the
  lock if it is a transaction and the lock is free (R141, R142, R144). -/
  | grant (p : Nat)
  /-- The engine takes one step of R28: one line operation, or the release. -/
  | engine
  /-- The engine runs the primitive it stands at the start of to its end (R109). -/
  | primitive
  /-- The posted command of requester `p` is run from acceptance to result with no other move between (R29). -/
  | command (p : Nat)
  deriving DecidableEq, Repr, Inhabited

end Sys2Proof
end

