-- ==== Sys2Proof/Config.lean ====
section
/-!
DEFINITION. The implementation parameters of rule R8 and the free values. A parameter the spec leaves OPEN and
a value the environment chooses is an `opaque` constant with no body: nothing can be proved from its value.
-/

namespace Sys2Proof.Config

/-- `WRITE_BIT`, bit 0 of a write-direction address byte (R8, R71).
PRESUMED: 0, which the spec itself takes from general knowledge of two-wire buses (G1, D3; log 1). -/
def writeBit : Level := low

/-- `READ_BIT`, bit 0 of a read-direction address byte (R8, R71).
PRESUMED: 1, as for `writeBit` (G1, D3; log 1). -/
def readBit : Level := high

/-- `INIT_SCL`, the clock latch after reset, at the default of R8 and R42 (log 2). -/
def initScl : Level := high

/-- `INIT_SDA`, the data latch after reset, at the default of R8 and R42 (log 2). -/
def initSda : Level := high

/-- `DELAY_US` less one. Free: the spec gives no value (R8, D4; log 3). -/
opaque delayUsLessOne : Nat

/-- `DELAY_US`, a positive number of microseconds (R8). -/
def delayUs : Nat := delayUsLessOne + 1

/-- `TICKS_PER_SECOND` less one, below `2^TW - 1`. Free: the spec gives no value (R8, D14; log 4). -/
opaque ticksLessOne : Fin 4294967295

/-- `TICKS_PER_SECOND`, a positive integer below `2^TW` (R8). -/
def ticksPerSecond : Timeout := BitVec.ofNat TW (ticksLessOne.val + 1)

/-- `NREQ` less one. Free: the spec gives no value (R8, D17; log 5). -/
opaque extraRequesters : Nat

/-- `NREQ`, the number of requesters, at least one (R8). -/
def nreq : Nat := extraRequesters + 1

/-- `NBUS` less one. Free: the spec gives no value (R8, D25; log 6). -/
opaque extraInstances : Nat

/-- `NBUS`, the number of bus instances, at least one (R8). -/
def nbus : Nat := extraInstances + 1

/-- The value the platform holds on `CFG_TIMEOUT` when the machine leaves reset (R39, R172). Free: it is an
input (log 7). Each instance, by its index, has a value of its own (log 23). -/
opaque cfgTimeoutAtReset : Nat → Timeout

/-- The level an unconstrained environment presents at a sample, as a function of the index of the instance and of
its whole history of line operations (R65, R93; U2). Free (log 8), and separately for each instance (log 23). -/
opaque freeLevel : Nat → List Token → Level

/-- The `n`-th move made on an instance, given by its index, when no move is listed: which agent moves next, which
waiting requester is granted, and what a requester posts (R144, R145; U11, U12). Free (log 9), and separately for
each instance (log 23). -/
opaque freeMove : Nat → Nat → Move

end Sys2Proof.Config
end

