-- ==== Sys2Proof/Syntax.lean ====
section
/-!
DEFINITION. The instructions: one constructor for each of the twelve rows of `spec/opcode_table.json`, in the
table's order (R2). Operands have exactly the widths of the spec, so no operand can be out of range. The byte
that `WRBYTE` sends is no part of its code: it is passed in `SR` (R77, R104).
-/

namespace Sys2Proof

/-- The operations of the three layers of the engine (R2). -/
inductive Instr where
  /-- `WRREG dev, reg, val` (R120). -/
  | wrreg (dev : BitVec 7) (reg : BitVec 8) (val : BitVec 8)
  /-- `RDREG dev, reg` (R121). -/
  | rdreg (dev : BitVec 7) (reg : BitVec 8)
  /-- `INIT` (R140). -/
  | init
  /-- `START` (R101). -/
  | start
  /-- `STOP` (R102). -/
  | stop
  /-- `NOACK` (R103). -/
  | noack
  /-- `WRBYTE v`, with `v` in `SR` (R104). -/
  | wrbyte
  /-- `RDBYTE` (R105). -/
  | rdbyte
  /-- `SETC l` (R90). -/
  | setc (l : Bool)
  /-- `SETD l` (R91). -/
  | setd (l : Bool)
  /-- `GETD` (R93). -/
  | getd
  /-- `DLY` (R94). -/
  | dly
  deriving DecidableEq, Repr

end Sys2Proof
end

