-- ==== Sys2Proof/Machine/State.lean ====
section
/-!
DEFINITION. The state of one bus instance (R20) as plain data, the inputs the outside world holds toward it
(R23, R39), the model's own record of the run (R15) and the state right after reset (R42, R170).
-/

namespace Sys2Proof.Machine

/-- Why the machine stops. -/
inductive Fault where
  /-- Raised by an engine step in a state whose sequencer position is in no step table. Safe: R27 says that `SEQ`
  "never leaves the finite step tables", so no run reaches it. -/
  | sequencerOutsideTables
  deriving DecidableEq, Repr

/-- Why the model gives an instruction no meaning. -/
inductive Refusal where
  /-- Raised by an arm of `exec` that has no meaning yet. Safe. No arm of this model raises it. -/
  | notModelled (mnemonic : String)
  deriving DecidableEq, Repr

/-- The sequencer position `SEQ = (CMDK, TSTEP, PRIM, PSTEP)` (R27). -/
structure Seq where
  cmdk  : CmdK
  tstep : Nat
  prim  : PrimSel
  pstep : Nat
  deriving DecidableEq, Repr

/-- The idle position `(IDLE, 0, NONE, 0)` (R27). -/
def Seq.idle : Seq := ⟨.idle, 0, .nothing, 0⟩

/-- The slot of one requester: `REQ_VALID`, `REQ_CW`, `RSP_VALID`, `RSP_RW` (R36). -/
structure Slot where
  reqValid : Bool
  reqCw    : BitVec 32
  rspValid : Bool
  rspRw    : BitVec 32
  deriving DecidableEq, Repr

/-- A slot after reset: both valid bits 0 (R36, R42). The words are unspecified; DESIGN CHOICE 0 (log 11). -/
def Slot.reset : Slot := ⟨false, 0#32, false, 0#32⟩

/-- The register file of a responder: cells in rising order of address, none of them 0, which is what an
unlisted register reads as (log 12). -/
abbrev Memory := List Host.Cell

/-- The phases of the reference responder (R66). -/
inductive Phase where
  | off
  | addr
  | wreg
  | wdata
  | rdata
  | dead
  deriving DecidableEq, Repr

/-- The reference responder (R66): its address `RA`, its register file `RM`, the pointer `RP`, the phase, the
pulse count `n` and the shift value `rs`. -/
structure Responder where
  ra    : BitVec 7
  rm    : Memory
  rp    : BitVec 8
  phase : Phase
  n     : Nat
  rs    : BitVec 8
  deriving DecidableEq, Repr

/-- What is attached to the two lines and answers `GETD` (R65, R66). -/
inductive Environment where
  /-- An arbitrary environment: the levels it presents at the next samples, oldest first, and after them free
  values. Every claim about all such lists holds for every environment (R65). -/
  | levels (ls : List Bool)
  /-- The reference responder (R66). -/
  | reference (r : Responder)
  /-- The absent responder, which answers 1 to every sample (R66). -/
  | absent
  deriving DecidableEq, Repr

/-- The state of one bus instance. -/
structure State where
  /-- `SCL_OUT`, the level last commanded on the clock line (R21). -/
  sclOut : Bool
  /-- `SDA_OUT`, the level last commanded on the data line (R22). -/
  sdaOut : Bool
  /-- `DEV`, the device address of the transaction in flight (R25). -/
  dev : BitVec 7
  /-- `REG`, its register address (R25). -/
  reg : BitVec 8
  /-- `DAT`, its data byte (R25). -/
  dat : BitVec 8
  /-- `DIR`, its direction: 0 write, 1 read (R25). -/
  dir : Bool
  /-- `SR`, the shift register of the byte primitives (R26). -/
  sr : BitVec 8
  /-- `RES`, the byte of the last completed `RDBYTE` of an `RDREG` (R26). -/
  res : BitVec 8
  /-- `SEQ`, the sequencer position (R27). -/
  seq : Seq
  /-- `ACK`, the level sampled in the last acknowledgment slot (R30). -/
  ack : Bool
  /-- `FAIL`, the recorded failure (R31). -/
  fail : Bool
  /-- `WSTAT`, the write status (R32). -/
  wstat : Bool
  /-- `TIMEOUT` (R33). -/
  timeout : BitVec 32
  /-- `REGD`: 1 once registered (R34). -/
  regd : Bool
  /-- `LOCK`: 1 while a transaction is in flight (R35). -/
  lock : Bool
  /-- `OWNER`, the requester whose command is in flight (R35). -/
  owner : Nat
  /-- The slots of the requesters `0 .. NREQ-1` (R36). -/
  slots : List Slot
  /-- The input `CFG_TIMEOUT` as the platform now presents it (R39). Input, not state of the block. -/
  cfgTimeout : BitVec 32
  /-- What is attached to the lines (R7, R65). Outside the block. -/
  env : Environment
  /-- The trace of the run, oldest token first (R10, R15). The model's own record. -/
  trace : List Token
  /-- The command words posted so far, oldest first, each with its requester (R145, R148). The model's own record. -/
  posted : List (Nat × BitVec 32)
  /-- The result words taken so far, oldest first, each with its requester (R15, R145). The model's own record. -/
  taken : List (Nat × BitVec 32)
  /-- The requester whose posted command is being answered. The model's own: the word a requester posts does not
  name the requester (R73). -/
  issuer : Nat
  /-- The moves of the agents that come next (R7, R156). The model's own. -/
  moves : List Move
  /-- How many free moves were drawn (log 9). The model's own. -/
  tick : Nat
  /-- The index of this instance among those of the system (R8, R20), by which its free values are its own (log 23).
  The model's own. -/
  bus : Nat
  deriving DecidableEq, Repr

/-- The state right after reset (R42, R170): the latches at `INIT_SCL` and `INIT_SDA`, the sequencer idle,
unregistered, unlocked, no timeout, nothing posted, the trace empty. What R42 leaves unspecified is 0
(DESIGN CHOICE, log 11). It is the instance of index 0. -/
def State.reset : State where
  sclOut := Config.initScl
  sdaOut := Config.initSda
  dev := 0#7
  reg := 0#8
  dat := 0#8
  dir := false
  sr := 0#8
  res := 0#8
  seq := Seq.idle
  ack := false
  fail := false
  wstat := false
  timeout := 0#32
  regd := false
  lock := false
  owner := 0
  slots := Slot.reset :: List.replicate Config.extraRequesters Slot.reset
  cfgTimeout := Config.cfgTimeoutAtReset 0
  env := .levels []
  trace := []
  posted := []
  taken := []
  issuer := 0
  moves := []
  tick := 0
  bus := 0

end Sys2Proof.Machine
end

