-- ==== Sys2Proof/Machine/Flags.lean ====
section
/-!
DEFINITION. Every flag computation of the spec: `ACK` (R30), `FAIL` (R31, R151), `WSTAT` (R32), and the clearing of
the last two at acquire (R142). Beside them the writes of the data registers `SR` and `RES` (R26).
-/

namespace Sys2Proof.Machine

/-- `ACK <- r`: the level sampled in the acknowledgment slot, 0 for acknowledged (R30, R104). -/
def State.setAck (r : Level) (s : State) : State := { s with ack := r }

/-- `record DeviceNotFound`: `FAIL <- 1` and nothing else (R151, R157). -/
def State.recordDeviceNotFound (s : State) : State := { s with fail := true }

/-- `WSTAT <- ACK` (R32, R120). -/
def State.captureWriteStatus (s : State) : State := { s with wstat := s.ack }

/-- `FAIL <- 0; WSTAT <- 0`, at acquire (R142). -/
def State.clearFlags (s : State) : State := { s with fail := false, wstat := false }

/-- `SR <- v` (R104, R105). -/
def State.loadSr (v : BitVec 8) (s : State) : State := { s with sr := v }

/-- `RES <- SR` (R121). -/
def State.captureResult (s : State) : State := { s with res := s.sr }

end Sys2Proof.Machine
end

