-- ==== Sys2Proof/WellFormed.lean ====
section
/-!
DEFINITION. Well-formedness of what a requester writes: a host command in the assembler syntax of R80, whose
operands are numbers, and a program, which holds host commands only. An `Instr` itself needs no check: its
operands have the spec's widths.
-/

namespace Sys2Proof

/-- The three layers of R2. -/
inductive Layer where
  | hostCommand
  | primitive
  | lineOperation
  deriving DecidableEq, Repr

/-- The layer an instruction belongs to (R2). -/
def Instr.layer : Instr → Layer
  | .wrreg _ _ _ => .hostCommand
  | .rdreg _ _   => .hostCommand
  | .init        => .hostCommand
  | .start       => .primitive
  | .stop        => .primitive
  | .noack       => .primitive
  | .wrbyte      => .primitive
  | .rdbyte      => .primitive
  | .setc _      => .lineOperation
  | .setd _      => .lineOperation
  | .getd        => .lineOperation
  | .dly         => .lineOperation

/-- Only host commands may stand in a program: primitives and line operations "cannot appear in a program, only
in traces" (R80, R158). -/
def Instr.postable (i : Instr) : Bool := i.layer = .hostCommand

/-- A line of the assembler syntax of R80, operands not yet checked. -/
inductive AsmLine where
  | wrreg (dev reg val : Nat)
  | rdreg (dev reg : Nat)
  | init
  deriving DecidableEq, Repr

/-- "An operand outside its range is an assembly error: it spells no command" (R80). -/
def AsmLine.wellFormed : AsmLine → Bool
  | .wrreg dev reg val => dev ≤ 0x7F && reg ≤ 0xFF && val ≤ 0xFF
  | .rdreg dev reg     => dev ≤ 0x7F && reg ≤ 0xFF
  | .init              => true

/-- The command a well-formed line spells; an ill-formed one spells none (R80). -/
def AsmLine.assemble (a : AsmLine) : Option Instr :=
  if a.wellFormed then
    match a with
    | .wrreg dev reg val => some (.wrreg (BitVec.ofNat 7 dev) (BitVec.ofNat 8 reg) (BitVec.ofNat 8 val))
    | .rdreg dev reg     => some (.rdreg (BitVec.ofNat 7 dev) (BitVec.ofNat 8 reg))
    | .init              => some .init
  else none

/-- A program of one requester: a list of host commands (R80, R148). -/
def programWellFormed (prog : List Instr) : Bool := prog.all Instr.postable

end Sys2Proof
end

