-- ==== Sys2Proof/Decode.lean ====
section
/-!
DEFINITION. The decoder and the encoder of the three code spaces: host command words (R74, R75, R81), primitive
select codes (R77) and line-operation words (R78). Decoding is total and rejects by name (R79).
-/

namespace Sys2Proof

/-- Field `DEV`, bits 22:16 (R74). -/
def fieldDev (w : BitVec 32) : BitVec 7 := w.extractLsb' 16 7

/-- Field `REG`, bits 15:8 (R74). -/
def fieldReg (w : BitVec 32) : BitVec 8 := w.extractLsb' 8 8

/-- Field `DAT`, bits 7:0 (R74). -/
def fieldDat (w : BitVec 32) : BitVec 8 := w.extractLsb' 0 8

/-- `CW = (OP << 28) | (DEV << 16) | (REG << 8) | DAT` (R81). -/
def commandWord (op : BitVec 4) (dev : BitVec 7) (reg dat : BitVec 8) : BitVec 32 :=
  (op.setWidth 32 <<< 28) ||| (dev.setWidth 32 <<< 16) ||| (reg.setWidth 32 <<< 8) ||| dat.setWidth 32

/-- The twelve rows of `spec/opcode_table.json` (R75, R77, R78). -/
def opcodeTable : List OpcodeRow :=
  [ ⟨"WRREG",  .cmd 0x10000000#32, .cmd 0xFF800000#32⟩,
    ⟨"RDREG",  .cmd 0x20000000#32, .cmd 0xFF8000FF#32⟩,
    ⟨"INIT",   .cmd 0x30000000#32, .cmd 0xFFFFFFFF#32⟩,
    ⟨"START",  .prim 0b001#3, .prim 0b111#3⟩,
    ⟨"STOP",   .prim 0b010#3, .prim 0b111#3⟩,
    ⟨"NOACK",  .prim 0b011#3, .prim 0b111#3⟩,
    ⟨"WRBYTE", .prim 0b100#3, .prim 0b111#3⟩,
    ⟨"RDBYTE", .prim 0b101#3, .prim 0b111#3⟩,
    ⟨"SETC",   .lop 0b000#3, .lop 0b110#3⟩,
    ⟨"SETD",   .lop 0b010#3, .lop 0b110#3⟩,
    ⟨"GETD",   .lop 0b100#3, .lop 0b111#3⟩,
    ⟨"DLY",    .lop 0b110#3, .lop 0b111#3⟩ ]

/-- A code word is the named instruction when its code space is the row's and `(code & mask) == match` (R75). -/
def OpcodeRow.selects (r : OpcodeRow) (x : CodeWord) : Bool :=
  match r.pattern, r.mask, x with
  | .cmd p, .cmd m, .cmd w    => w &&& m == p
  | .prim p, .prim m, .prim c => c &&& m == p
  | .lop p, .lop m, .lop c    => c &&& m == p
  | _, _, _                   => false

/-- The row's mnemonic of an instruction. -/
def Instr.mnemonic : Instr → String
  | .wrreg _ _ _ => "WRREG"
  | .rdreg _ _   => "RDREG"
  | .init        => "INIT"
  | .start       => "START"
  | .stop        => "STOP"
  | .noack       => "NOACK"
  | .wrbyte      => "WRBYTE"
  | .rdbyte      => "RDBYTE"
  | .setc _      => "SETC"
  | .setd _      => "SETD"
  | .getd        => "GETD"
  | .dly         => "DLY"

/-- Decode a host command word by the three rows of R75 (R81); every other word is illegal (R79). -/
def decodeCommand (w : BitVec 32) : Except DecodeError Instr :=
  if w &&& 0xFF800000#32 = 0x10000000#32 then .ok (.wrreg (fieldDev w) (fieldReg w) (fieldDat w))
  else if w &&& 0xFF8000FF#32 = 0x20000000#32 then .ok (.rdreg (fieldDev w) (fieldReg w))
  else if w &&& 0xFFFFFFFF#32 = 0x30000000#32 then .ok .init
  else .error .illegalCommand

/-- Decode a primitive select code (R77). `0b000` selects nothing; `0b110` and `0b111` are never produced. -/
def decodePrim (c : BitVec 3) : Except DecodeError Instr :=
  if c = 0b001#3 then .ok .start
  else if c = 0b010#3 then .ok .stop
  else if c = 0b011#3 then .ok .noack
  else if c = 0b100#3 then .ok .wrbyte
  else if c = 0b101#3 then .ok .rdbyte
  else .error .noPrimitive

/-- Decode a line-operation word: `KIND` in bits 2:1 and `LVL` in bit 0 (R78). `0b101` and `0b111` are never
produced. -/
def decodeLop (c : BitVec 3) : Except DecodeError Instr :=
  if c.extractLsb' 1 2 = 0b00#2 then .ok (.setc (c.getLsbD 0))
  else if c.extractLsb' 1 2 = 0b01#2 then .ok (.setd (c.getLsbD 0))
  else if c = 0b100#3 then .ok .getd
  else if c = 0b110#3 then .ok .dly
  else .error .noLineOperation

/-- Decode a code word of any of the three code spaces. -/
def decode : CodeWord → Except DecodeError Instr
  | .cmd w  => decodeCommand w
  | .prim c => decodePrim c
  | .lop c  => decodeLop c

/-- `LOP` of a kind and a level (R78). -/
def lopCode (kind : BitVec 2) (l : Level) : BitVec 3 := kind ++ BitVec.ofBool l

/-- The code of an instruction, written from R74, R75, R77 and R78. -/
def encode : Instr → CodeWord
  | .wrreg dev reg val => .cmd (commandWord 0x1#4 dev reg val)
  | .rdreg dev reg     => .cmd (commandWord 0x2#4 dev reg 0#8)
  | .init              => .cmd (commandWord 0x3#4 0#7 0#8 0#8)
  | .start             => .prim 1#3
  | .stop              => .prim 2#3
  | .noack             => .prim 3#3
  | .wrbyte            => .prim 4#3
  | .rdbyte            => .prim 5#3
  | .setc l            => .lop (lopCode 0#2 l)
  | .setd l            => .lop (lopCode 1#2 l)
  | .getd              => .lop (lopCode 2#2 low)
  | .dly               => .lop (lopCode 3#2 low)

/-- The select code of a primitive selector (R77). -/
def PrimSel.code : PrimSel → BitVec 3
  | .nothing => 0#3
  | .start   => 1#3
  | .stop    => 2#3
  | .noack   => 3#3
  | .wrbyte  => 4#3
  | .rdbyte  => 5#3

/-- The line-operation word the engine gives the Line Driver, port `lop_word` (R39, R78). -/
def LineOp.code : LineOp → BitVec 3
  | .setc l => lopCode 0#2 l
  | .setd l => lopCode 1#2 l
  | .getd   => lopCode 2#2 low
  | .dly    => lopCode 3#2 low

/-- The instruction that performs a line operation (R90 to R94). -/
def LineOp.instr : LineOp → Instr
  | .setc l => .setc l
  | .setd l => .setd l
  | .getd   => .getd
  | .dly    => .dly

/-- The instruction a primitive selector selects, `NONE` selecting none (R77). -/
def PrimSel.instr : PrimSel → Option Instr
  | .nothing => none
  | .start   => some .start
  | .stop    => some .stop
  | .noack   => some .noack
  | .wrbyte  => some .wrbyte
  | .rdbyte  => some .rdbyte

/-- The code word the table's bits stand for. A row of 32 bits is a host command word. A row of 3 bits is in one
of two code spaces whose numbers overlap and the bits alone do not say which: a code that names a primitive is
read as that primitive, and another as a line-operation word (DESIGN CHOICE, log 10). -/
def tableCodeWord (nbits w : Nat) : CodeWord :=
  if nbits ≤ 8 then
    if w < 8 then
      match decodePrim (BitVec.ofNat 3 w) with
      | .ok _    => .prim (BitVec.ofNat 3 w)
      | .error _ => .lop (BitVec.ofNat 3 w)
    else .lop 0b111#3
  else .cmd (BitVec.ofNat 32 w)

/-- The instruction the decoder reads from the bits of a row of the opcode table. -/
def decodeTableWord (nbits w : Nat) : Option Instr :=
  match decode (tableCodeWord nbits w) with
  | .ok i    => some i
  | .error _ => none

end Sys2Proof
end

