-- ==== Sys2Proof/Machine/Operands.lean ====
section
/-!
DEFINITION. The operand and data forms: the address byte (R71), bit selection and accumulation (R106), the byte a
`WRBYTE` step of a transaction sends (R120, R121) and the result word (R76).
-/

namespace Sys2Proof.Machine

/-- The address byte `AB = ((dev << 1) | dirbit)[7:0]` (R71). -/
def addressByte (dev : BitVec 7) (dirbit : Level) : BitVec 8 :=
  (dev.setWidth 8 <<< 1) ||| (BitVec.ofBool dirbit).setWidth 8

/-- The bit sent in cell `j` of a byte, `(v >> (7 - j)) & 1`: most significant first (R54, R106). -/
def cellBit (v : BitVec 8) (j : Nat) : Level := v.getLsbD (7 - j)

/-- Accumulation of a sampled level: `((SR << 1) | r)[7:0]` (R106). -/
def shiftIn (v : BitVec 8) (r : Level) : BitVec 8 :=
  (v <<< 1) ||| (BitVec.ofBool r).setWidth 8

/-- The byte assembled from eight samples in cell order, `sum over j of r_j * 2^(7-j)` (R106). -/
def assembleByte (r0 r1 r2 r3 r4 r5 r6 r7 : Level) : BitVec 8 :=
  BitVec.ofNat 8 (r0.toNat * 128 + r1.toNat * 64 + r2.toNat * 32 + r3.toNat * 16 +
    r4.toNat * 8 + r5.toNat * 4 + r6.toNat * 2 + r7.toNat)

/-- The number of a result code (R76). -/
def resultCodeBits : ResultCode → BitVec 4
  | .ok                   => 0#4
  | .deviceNotFound       => 1#4
  | .busNotFound          => 2#4
  | .registrationConflict => 3#4
  | .illegalCommand       => 4#4

/-- The result word: `WSTAT` in bit 12, `CODE` in bits 11:8, `DATA` in bits 7:0, the rest 0 (R76). -/
def resultWord (wstat : Bool) (code : ResultCode) (data : BitVec 8) : BitVec 32 :=
  ((BitVec.ofBool wstat).setWidth 32 <<< 12) ||| ((resultCodeBits code).setWidth 32 <<< 8) ||| data.setWidth 32

/-- Field `WSTAT` of a result word (R76). -/
def rwWstat (rw : BitVec 32) : Bool := rw.getLsbD 12

/-- Field `CODE` of a result word (R76). -/
def rwCode (rw : BitVec 32) : BitVec 4 := rw.extractLsb' 8 4

/-- Field `DATA` of a result word (R76). -/
def rwData (rw : BitVec 32) : BitVec 8 := rw.extractLsb' 0 8

/-- The byte the caller places in `SR` for the `WRBYTE` of transaction step `t` (R120, R121). -/
def State.writeOperand (s : State) (k : CmdK) (t : Nat) : BitVec 8 :=
  match k, t with
  | .wrreg, 1 => addressByte s.dev Config.writeBit
  | .wrreg, 3 => s.reg
  | .wrreg, 5 => s.dat
  | .rdreg, 1 => addressByte s.dev Config.writeBit
  | .rdreg, 3 => s.reg
  | .rdreg, 8 => addressByte s.dev Config.readBit
  | _, _      => s.sr

end Sys2Proof.Machine
end

