-- ==== Sys2Proof/Machine/Ops.lean ====
section
/-!
DEFINITION. The named operations over registers and memory that the instructions share: the register file of a
responder, what the environment sees and answers (R65, R66), performing one line operation (R90 to R94), the
requester slots (R36, R145), refusing a command (R154), acquiring and releasing the lock (R142, R143).

Taking and returning from an exception have this form here (R157, R159): a recorded failure saves nothing, sets
`FAIL` and moves the sequencer to the final `STOP` (`State.recordDeviceNotFound`, and the branches in the
transactions); a refusal writes only the requester's slot (`State.refuse`); and the return to the requester is
the release (`State.release`).
-/

namespace Sys2Proof.Machine

/-! ### The register file of a responder -/

/-- What a register that was never written reads as. DESIGN CHOICE: 0 (log 12). -/
def Memory.unlisted : BitVec 8 := 0#8

/-- The byte at an address. -/
def Memory.read : Memory → Nat → BitVec 8
  | [], _ => Memory.unlisted
  | (k, v) :: rest, a => if k = a then v else Memory.read rest a

/-- Write one byte, keeping the canonical form. -/
def Memory.write : Memory → Nat → BitVec 8 → Memory
  | [], a, v => if v = Memory.unlisted then [] else [(a, v)]
  | (k, w) :: rest, a, v =>
    if a < k then
      if v = Memory.unlisted then (k, w) :: rest else (a, v) :: (k, w) :: rest
    else if a = k then
      if v = Memory.unlisted then rest else (a, v) :: rest
    else (k, w) :: Memory.write rest a v

/-- Every address of the list is above `lo`, the addresses rise strictly, and no cell is what an unlisted
address reads as. -/
def Memory.risesAbove : Nat → Memory → Bool
  | _, [] => true
  | lo, (k, v) :: rest => decide (lo < k) && decide (v ≠ Memory.unlisted) && Memory.risesAbove k rest

/-- The canonical form: strictly rising addresses, no cell equal to `Memory.unlisted`. -/
def Memory.wf : Memory → Bool
  | [] => true
  | (k, v) :: rest => decide (v ≠ Memory.unlisted) && Memory.risesAbove k rest

/-! ### The environment -/

/-- The answer of the reference responder to a sample: it pulls the line low in the ninth slot of a byte sent to
it, and presents the selected register most significant bit first in slots 10 to 17 of a read frame (R66). -/
def Responder.answer (r : Responder) : Level :=
  match r.phase with
  | .off   => high
  | .dead  => high
  | .addr  => !(decide (0 < r.n) && r.n % 9 == 0)
  | .wreg  => !(decide (0 < r.n) && r.n % 9 == 0)
  | .wdata => !(decide (0 < r.n) && r.n % 9 == 0)
  | .rdata =>
    if 10 ≤ r.n && r.n ≤ 17 then (Memory.read r.rm r.rp.toNat).getLsbD (17 - r.n) else high

/-- A rising clock in the reference responder (R66). -/
def Responder.rise (r : Responder) (sda : Level) : Responder :=
  let n := r.n + 1
  let r1 := { r with n := n }
  match r.phase with
  | .off   => r
  | .dead  => r
  | .rdata => r1
  | .addr  =>
    if n % 9 ≠ 0 then
      let rs := shiftIn r.rs sda
      if n % 9 = 8 ∧ rs.extractLsb' 1 7 ≠ r.ra then { r1 with rs := rs, phase := .dead } else { r1 with rs := rs }
    else r1
  | .wreg  =>
    if n % 9 ≠ 0 then
      let rs := shiftIn r.rs sda
      if n % 9 = 8 then { r1 with rs := rs, rp := rs } else { r1 with rs := rs }
    else r1
  | .wdata =>
    if n % 9 ≠ 0 then
      let rs := shiftIn r.rs sda
      if n % 9 = 8 then { r1 with rs := rs, rm := Memory.write r.rm r.rp.toNat rs } else { r1 with rs := rs }
    else r1

/-- A falling clock in the reference responder: the end of a ninth slot moves the phase on (R66). -/
def Responder.fall (r : Responder) : Responder :=
  if 0 < r.n ∧ r.n % 9 = 0 then
    match r.phase with
    | .off   => r
    | .dead  => r
    | .addr  =>
      if r.rs.getLsbD 0 = Config.writeBit then { r with phase := .wreg, rs := 0#8 }
      else if r.rs.getLsbD 0 = Config.readBit then { r with phase := .rdata, rs := 0#8 }
      else { r with rs := 0#8 }
    | .wreg  => { r with phase := .wdata, rs := 0#8 }
    | .wdata => { r with phase := .wdata, rs := 0#8 }
    | .rdata => { r with phase := .dead, rs := 0#8 }
  else r

/-- The pattern that a line operation makes on the levels last commanded (R12). -/
def patternOf (op : LineOp) (scl sda : Level) : Option Pattern :=
  match op, scl, sda with
  | .setd false, true, true => some .start
  | .setd true, true, false => some .stop
  | _, _, _ => none

/-- What the reference responder does at a line operation executed at levels `(scl, sda)` (R66). -/
def Responder.observe (r : Responder) (op : LineOp) (scl sda : Level) : Responder :=
  match patternOf op scl sda with
  | some .start => { r with phase := .addr, n := 0, rs := 0#8 }
  | some .stop  => { r with phase := .off }
  | none =>
    match op, scl with
    | .setc true, false => r.rise sda
    | .setc false, true => r.fall
    | _, _ => r

/-- What the environment becomes when the engine performs a line operation at levels `(scl, sda)` (R65, R66). -/
def Environment.observe (e : Environment) (op : LineOp) (scl sda : Level) : Environment :=
  match e with
  | .levels ls   => if op = .getd then .levels ls.tail else .levels ls
  | .reference r => .reference (r.observe op scl sda)
  | .absent      => .absent

/-- The level the environment of the instance of index `bus` presents after a history of its line operations (R65,
R66). -/
def Environment.presents (e : Environment) (bus : Nat) (history : List Token) : Level :=
  match e with
  | .levels (l :: _) => l
  | .levels []       => Config.freeLevel bus history
  | .reference r     => r.answer
  | .absent          => high

/-- `SDA_IN`, the level the environment presents on the data line now (R23, R93). -/
def State.sdaIn (s : State) : Level := s.env.presents s.bus s.trace

/-- The register file on the bus: what the attached responder holds (R51). -/
def State.memory (s : State) : Memory :=
  match s.env with
  | .reference r => r.rm
  | .levels _    => []
  | .absent      => []

/-! ### Line operations -/

/-- The trace token of a line operation, given the level presented (R10). -/
def tokenOf (op : LineOp) (r : Level) : Token :=
  match op with
  | .setc l => .c l
  | .setd l => .d l
  | .getd   => .g r
  | .dly    => .t

/-- Perform one line operation: `SETC` writes `SCL_OUT` and `SETD` writes `SDA_OUT`, also when they repeat the level
(R59); `GETD` and `DLY` write no state of the block; each appends its token (R90, R91, R93, R94). -/
def State.perform (op : LineOp) (s : State) : State :=
  { s with
    sclOut := match op with
      | .setc l => l
      | _ => s.sclOut
    sdaOut := match op with
      | .setd l => l
      | _ => s.sdaOut
    env := s.env.observe op s.sclOut s.sdaOut
    trace := s.trace ++ [tokenOf op s.sdaIn] }

/-! ### Requester slots -/

/-- The slot of requester `p`, if there is such a requester. -/
def State.slot? (s : State) (p : Nat) : Option Slot := s.slots[p]?

/-- Change the slot of requester `p`. -/
def State.setSlot (p : Nat) (f : Slot → Slot) (s : State) : State := { s with slots := s.slots.modify p f }

/-- `RSP_RW[p] <- rw; RSP_VALID[p] <- 1; REQ_VALID[p] <- 0` (R143, R154). -/
def State.respond (p : Nat) (rw : BitVec 32) (s : State) : State :=
  s.setSlot p (fun sl => { sl with reqValid := false, rspValid := true, rspRw := rw })

/-- A refusal: one step that writes only the requester's slot (R141, R154). -/
def State.refuse (p : Nat) (code : ResultCode) (s : State) : State :=
  s.respond p (resultWord false code 0#8)

/-- A slot holds a command that is not yet answered (R141). -/
def Slot.pending (sl : Slot) : Bool := sl.reqValid && !sl.rspValid

/-- A requester may post only when both its valid bits are 0 (R36, R145). -/
def Slot.free (sl : Slot) : Bool := !sl.reqValid && !sl.rspValid

/-- *Post*, a requester's step; not enabled, it does nothing (R145). -/
def State.post (p : Nat) (cw : BitVec 32) (s : State) : State :=
  match s.slot? p with
  | some sl =>
    if sl.free then
      { s.setSlot p (fun sl => { sl with reqValid := true, reqCw := cw }) with posted := s.posted ++ [(p, cw)] }
    else s
  | none => s

/-- *Take*, a requester's step; not enabled, it does nothing (R145). -/
def State.take (p : Nat) (s : State) : State :=
  match s.slot? p with
  | some sl =>
    if sl.rspValid then
      { s.setSlot p (fun sl => { sl with rspValid := false }) with taken := s.taken ++ [(p, sl.rspRw)] }
    else s
  | none => s

/-! ### The lock -/

/-- *Acquire* for requester `p`: take the lock, latch the operands, clear the flags, and stand at the first line
operation of the command (R142). -/
def State.acquire (p : Nat) (k : CmdK) (dev : BitVec 7) (reg dat : BitVec 8) (s : State) : State :=
  { s.clearFlags with
    lock := true
    owner := p
    dev := dev
    reg := reg
    dat := dat
    dir := decide (k = .rdreg)
    seq := ⟨k, 0, .start, 0⟩ }

/-- The result word formed at release (R143). -/
def State.releaseWord (s : State) : BitVec 32 :=
  resultWord s.wstat (if s.fail then .deviceNotFound else .ok)
    (if s.seq.cmdk = .rdreg ∧ s.fail = false then s.res else 0#8)

/-- *Release*: deliver the result word to the owner, free the lock and idle the sequencer (R143). -/
def State.release (s : State) : State :=
  { s.respond s.owner s.releaseWord with lock := false, seq := Seq.idle }

/-- The acceptance of a transaction command of the requester being answered: refused on an unregistered
instance, left waiting while the lock is held, and otherwise granted the lock and continued by `body`
(R141, R142, R152). -/
def State.withLock (k : CmdK) (dev : BitVec 7) (reg dat : BitVec 8) (body : State → State) (s : State) : State :=
  if s.regd = false then s.refuse s.issuer .busNotFound
  else if s.lock then s
  else body (s.acquire s.issuer k dev reg dat)

end Sys2Proof.Machine
end

