-- ==== Sys2Proof/Machine/BusHandle.lean ====
section
/-!
DEFINITION. Registration of the bus instance (R140).
-/

namespace Sys2Proof.Machine

/-- The timeout `INIT` writes: zero means unset and selects the default (R33, R140). -/
def registeredTimeout (cfg : BitVec 32) : BitVec 32 := if cfg = 0#32 then Config.ticksPerSecond else cfg

/-- `INIT`: initialise the lock, default the timeout, register, and answer `OK`; refused on a registered instance
(R140, R153). -/
def execInit (s : State) : Host.Outcome State Fault Refusal :=
  if s.regd then .next (s.refuse s.issuer .registrationConflict)
  else .next (State.respond s.issuer (resultWord false .ok 0#8)
    { s with lock := false, timeout := registeredTimeout s.cfgTimeout, regd := true })

end Sys2Proof.Machine
end

