-- ==== Sys2Proof/Machine/LineOps.lean ====
section
/-!
DEFINITION. The meanings of the four line operations (R90 to R96): none can fail, and none but `SETC` and `SETD` writes
state of the block.
-/

namespace Sys2Proof.Machine

/-- `SETC l` (R90). -/
def execSetc (l : Bool) (s : State) : Host.Outcome State Fault Refusal := .next (s.perform (.setc l))

/-- `SETD l` (R91). -/
def execSetd (l : Bool) (s : State) : Host.Outcome State Fault Refusal := .next (s.perform (.setd l))

/-- `GETD` (R93): the sampled level is `s.sdaIn`, and the primitive that samples stores it (R30, R26). -/
def execGetd (s : State) : Host.Outcome State Fault Refusal := .next (s.perform .getd)

/-- `DLY` (R94). -/
def execDly (s : State) : Host.Outcome State Fault Refusal := .next (s.perform .dly)

end Sys2Proof.Machine
end

