-- ==== Sys2Proof/Machine/Primitives.lean ====
section
/-!
DEFINITION. The five primitives, written as the pseudocode of R101 to R105.
-/

namespace Sys2Proof.Machine

/-- `START` (R101). -/
def State.runStart (s : State) : State :=
  s |>.perform (.setd high) |>.perform (.setc high) |>.perform .dly
    |>.perform (.setd low) |>.perform .dly |>.perform (.setc low)

/-- `STOP` (R102). -/
def State.runStop (s : State) : State :=
  s |>.perform (.setd low) |>.perform .dly |>.perform (.setc high)
    |>.perform .dly |>.perform (.setd high) |>.perform .dly

/-- `NOACK` (R103). -/
def State.runNoack (s : State) : State :=
  s |>.perform .dly |>.perform (.setd high) |>.perform (.setc high) |>.perform .dly
    |>.perform (.setc low) |>.perform .dly |>.perform (.setd low) |>.perform .dly

/-- Cell `j` of `WRBYTE`: bit `7 - j` of `SR` on the data line, one clock pulse (R104). -/
def State.sendCell (s : State) (j : Nat) : State :=
  s |>.perform (.setd (cellBit s.sr j)) |>.perform (.setc high) |>.perform .dly |>.perform (.setc low)

/-- The acknowledgment slot of `WRBYTE`: release the data line, pulse the clock, `ACK <- GETD` (R104). -/
def State.ackSlot (s : State) : State :=
  let s := s |>.perform (.setd high) |>.perform (.setc high) |>.perform .dly
  let r := s.sdaIn
  s |>.perform .getd |>.setAck r |>.perform (.setc low)

/-- `WRBYTE v` with `v` already in `SR` (R104). -/
def State.runWrbyte (s : State) : State :=
  ([0, 1, 2, 3, 4, 5, 6, 7].foldl State.sendCell s).ackSlot

/-- `call WRBYTE(v)`: the caller places the byte in `SR` (R104). -/
def State.callWrbyte (v : BitVec 8) (s : State) : State := (s.loadSr v).runWrbyte

/-- One cell of `RDBYTE`: wait, raise the clock, sample into `SR`, drop the clock (R105). -/
def State.recvCell (s : State) : State :=
  let s := s |>.perform .dly |>.perform (.setc high)
  let r := s.sdaIn
  s |>.perform .getd |>.loadSr (shiftIn s.sr r) |>.perform (.setc low)

/-- The eight cells of `RDBYTE`, counted down. -/
def State.recvCells : Nat → State → State
  | 0, s => s
  | n + 1, s => State.recvCells n s.recvCell

/-- `RDBYTE` (R105). -/
def State.runRdbyte (s : State) : State :=
  State.recvCells 8 (s |>.perform (.setd high) |>.loadSr 0#8)

/-- `START` (R101). -/
def execStart (s : State) : Host.Outcome State Fault Refusal := .next s.runStart

/-- `STOP` (R102). -/
def execStop (s : State) : Host.Outcome State Fault Refusal := .next s.runStop

/-- `NOACK` (R103). -/
def execNoack (s : State) : Host.Outcome State Fault Refusal := .next s.runNoack

/-- `WRBYTE v` (R104); `v` is in `SR` (R77). -/
def execWrbyte (s : State) : Host.Outcome State Fault Refusal := .next s.runWrbyte

/-- `RDBYTE` (R105). -/
def execRdbyte (s : State) : Host.Outcome State Fault Refusal := .next s.runRdbyte

end Sys2Proof.Machine
end

