-- ==== Sys2Proof/Machine/Transactions.lean ====
section
/-!
DEFINITION. The two register transactions, written as the pseudocode of R120 and R121, which R29 makes normative. The
requester they answer is `s.issuer`.
-/

namespace Sys2Proof.Machine

/-- The branch directly after an address byte: not acknowledged records the failure and skips what follows
(R122, R123). -/
def State.ifAcknowledged (body : State → State) (s : State) : State :=
  if s.ack then s.recordDeviceNotFound else body s

/-- Steps 4 and 5 of `WRREG`: the register address and the data byte, whose acknowledgment is the write status
(R120). -/
def State.sendRegisterAndData (s : State) : State :=
  s |>.perform .dly |>.callWrbyte s.reg |>.perform .dly |>.callWrbyte s.dat |>.captureWriteStatus

/-- `WRREG` from acquire to the final `STOP` (R120). -/
def State.writeTransaction (s : State) : State :=
  s |>.runStart |>.callWrbyte (addressByte s.dev Config.writeBit)
    |>.ifAcknowledged State.sendRegisterAndData |>.runStop

/-- Step 5 of `RDREG`: wait, read the byte into `RES`, and send the not-acknowledge (R121). -/
def State.receiveData (s : State) : State :=
  s |>.perform .dly |>.runRdbyte |>.captureResult |>.runNoack

/-- Steps 3 to 5 of `RDREG`: select the register, stop, start again, address for reading (R121, R126). -/
def State.selectAndRead (s : State) : State :=
  s |>.perform .dly |>.callWrbyte s.reg |>.perform .dly |>.runStop |>.perform .dly
    |>.runStart |>.callWrbyte (addressByte s.dev Config.readBit)
    |>.ifAcknowledged State.receiveData

/-- `RDREG` from acquire to the final `STOP` (R121). -/
def State.readTransaction (s : State) : State :=
  s |>.runStart |>.callWrbyte (addressByte s.dev Config.writeBit)
    |>.ifAcknowledged State.selectAndRead |>.runStop

/-- `WRREG dev, reg, val` (R120). -/
def execWrreg (dev : BitVec 7) (reg val : BitVec 8) (s : State) : Host.Outcome State Fault Refusal :=
  .next (s.withLock .wrreg dev reg val (fun s => s.writeTransaction.release))

/-- `RDREG dev, reg` (R121); `DAT` is written with 0 (R25). -/
def execRdreg (dev : BitVec 7) (reg : BitVec 8) (s : State) : Host.Outcome State Fault Refusal :=
  .next (s.withLock .rdreg dev reg 0#8 (fun s => s.readTransaction.release))

end Sys2Proof.Machine
end

