-- ==== Sys2Proof/Machine/Dispatch.lean ====
section
/-! DEFINITION. One arm for each instruction: the call of its meaning. -/

namespace Sys2Proof.Machine

def exec (i : Instr) (s : State) : Host.Outcome State Fault Refusal :=
  match i with
  | .wrreg dev reg val => Sys2Proof.Machine.execWrreg dev reg val s
  | .rdreg dev reg => Sys2Proof.Machine.execRdreg dev reg s
  | .init => Sys2Proof.Machine.execInit s
  | .start => Sys2Proof.Machine.execStart s
  | .stop => Sys2Proof.Machine.execStop s
  | .noack => Sys2Proof.Machine.execNoack s
  | .wrbyte => Sys2Proof.Machine.execWrbyte s
  | .rdbyte => Sys2Proof.Machine.execRdbyte s
  | .setc l => Sys2Proof.Machine.execSetc l s
  | .setd l => Sys2Proof.Machine.execSetd l s
  | .getd => Sys2Proof.Machine.execGetd s
  | .dly => Sys2Proof.Machine.execDly s

end Sys2Proof.Machine
end

