-- ==== Sys2Proof/Machine/Sequencer.lean ====
section
/-!
DEFINITION. The small-step engine (R27, R28): the step tables of the two commands, the line operation the sequencer
points at, the bookkeeping between two line operations, and the engine's steps at the grain of a line operation
and of a primitive.
-/

namespace Sys2Proof.Machine

/-- The step tables: what transaction step `t` of a command does (R120, R121). -/
def stepTable (k : CmdK) (t : Nat) : Option StepKind :=
  match k, t with
  | .wrreg, 0  => some (.call .start)
  | .wrreg, 1  => some (.call .wrbyte)
  | .wrreg, 2  => some .delay
  | .wrreg, 3  => some (.call .wrbyte)
  | .wrreg, 4  => some .delay
  | .wrreg, 5  => some (.call .wrbyte)
  | .wrreg, 6  => some (.call .stop)
  | .wrreg, 7  => some .release
  | .rdreg, 0  => some (.call .start)
  | .rdreg, 1  => some (.call .wrbyte)
  | .rdreg, 2  => some .delay
  | .rdreg, 3  => some (.call .wrbyte)
  | .rdreg, 4  => some .delay
  | .rdreg, 5  => some (.call .stop)
  | .rdreg, 6  => some .delay
  | .rdreg, 7  => some (.call .start)
  | .rdreg, 8  => some (.call .wrbyte)
  | .rdreg, 9  => some .delay
  | .rdreg, 10 => some (.call .rdbyte)
  | .rdreg, 11 => some (.call .noack)
  | .rdreg, 12 => some (.call .stop)
  | .rdreg, 13 => some .release
  | _, _       => none

/-- The transaction step of the final `STOP` (R122, R123). -/
def finalStop : CmdK → Nat
  | .idle  => 0
  | .wrreg => 6
  | .rdreg => 12

/-- The transaction steps that send an address byte, after which the branch on `ACK` is taken (R122, R123). -/
def sendsAddress (k : CmdK) (t : Nat) : Bool :=
  match k, t with
  | .wrreg, 1 => true
  | .rdreg, 1 => true
  | .rdreg, 8 => true
  | _, _      => false

/-- The number of line operations of a primitive (R107). -/
def primLength : PrimSel → Nat
  | .nothing => 0
  | .start   => 6
  | .stop    => 6
  | .noack   => 8
  | .wrbyte  => 37
  | .rdbyte  => 33

/-- The line operation at index `k` of a primitive, `PSTEP` of R101 to R105, with `v` in `SR`. -/
def primOp (p : PrimSel) (v : BitVec 8) (k : Nat) : Option LineOp :=
  match p with
  | .nothing => none
  | .start   => [LineOp.setd high, .setc high, .dly, .setd low, .dly, .setc low][k]?
  | .stop    => [LineOp.setd low, .dly, .setc high, .dly, .setd high, .dly][k]?
  | .noack   => [LineOp.dly, .setd high, .setc high, .dly, .setc low, .dly, .setd low, .dly][k]?
  | .wrbyte  =>
    if k < 32 then [LineOp.setd (v.getLsbD (7 - k / 4)), .setc high, .dly, .setc low][k % 4]?
    else [LineOp.setd high, .setc high, .dly, .getd, .setc low][k - 32]?
  | .rdbyte  =>
    if k = 0 then some (.setd high)
    else if k < 33 then [LineOp.dly, .setc high, .getd, .setc low][(k - 1) % 4]?
    else none

/-- What the engine does next while it holds the lock: release, or one line operation (R28). -/
inductive EngineNext where
  | release
  | perform (op : LineOp)
  deriving DecidableEq, Repr

/-- The line operation, or the release, that `SEQ` points at; none outside the step tables (R27, R28). -/
def engineNext (q : Seq) (sr : BitVec 8) : Option EngineNext :=
  match stepTable q.cmdk q.tstep with
  | none => none
  | some .release => if q.prim = .nothing ∧ q.pstep = 0 then some .release else none
  | some .delay   => if q.prim = .nothing ∧ q.pstep = 0 then some (.perform .dly) else none
  | some (.call p) => if q.prim = p then (primOp p sr q.pstep).map .perform else none

/-- Port `lop_word` with `lop_valid`: the line-operation word the engine issues next, if any (R39, R78). -/
def State.lopWord (s : State) : Option (BitVec 3) :=
  if s.lock then
    match engineNext s.seq s.sr with
    | some (.perform op) => some op.code
    | _ => none
  else none

/-- The primitive a transaction step runs, `NONE` for a bare delay or the release (R27). -/
def stepPrim : StepKind → PrimSel
  | .call p  => p
  | .delay   => .nothing
  | .release => .nothing

/-- Move the sequencer to the beginning of transaction step `t`, loading `SR` if that step calls `WRBYTE`
(R28, R104). -/
def State.enterStep (t : Nat) (s : State) : State :=
  match stepTable s.seq.cmdk t with
  | none => { s with seq := ⟨s.seq.cmdk, t, .nothing, 0⟩ }
  | some kind =>
    { s with
      seq := ⟨s.seq.cmdk, t, stepPrim kind, 0⟩
      sr := if stepPrim kind = .wrbyte then s.writeOperand s.seq.cmdk t else s.sr }

/-- What is captured when transaction step `t` of a command ends: the write status (R120) or the result byte
(R121). -/
def State.captureAtEnd (k : CmdK) (t : Nat) (s : State) : State :=
  match k, t with
  | .wrreg, 5  => s.captureWriteStatus
  | .rdreg, 10 => s.captureResult
  | _, _       => s

/-- The end of the current transaction step: capture, then branch to the final `STOP` on an address byte that was not
acknowledged, or go on to the next step (R122, R123). -/
def State.finishStep (s : State) : State :=
  let k := s.seq.cmdk
  let t := s.seq.tstep
  let s := s.captureAtEnd k t
  if sendsAddress k t && s.ack then s.recordDeviceNotFound.enterStep (finalStop k) else s.enterStep (t + 1)

/-- What the primitive does with a sample, and the clear of `SR` after the first operation of `RDBYTE` (R104, R105).
`r` is the level the environment presented at this line operation. -/
def State.storeSample (op : LineOp) (r : Level) (s : State) : State :=
  match s.seq.prim with
  | .wrbyte => if op = .getd then s.setAck r else s
  | .rdbyte =>
    if op = .getd then s.loadSr (shiftIn s.sr r)
    else if s.seq.pstep = 0 then s.loadSr 0#8
    else s
  | .nothing => s
  | .start   => s
  | .stop    => s
  | .noack   => s

/-- Advance `SEQ` past the line operation just performed (R28). -/
def State.advance (s : State) : State :=
  if s.seq.pstep + 1 < primLength s.seq.prim then { s with seq := { s.seq with pstep := s.seq.pstep + 1 } }
  else s.finishStep

/-- Continue a run after an instruction of a lower layer. -/
def andThen (o : Host.Outcome State Fault Refusal) (f : State → State) : Host.Outcome State Fault Refusal :=
  match o with
  | .next s    => .next (f s)
  | .fault r   => .fault r
  | .refused r => .refused r

/-- One engine step: the line operation at `SEQ` with its bookkeeping, or the release; nothing while the engine
holds no command, since the grant is the arbiter's move (R28). -/
def State.engineStep (s : State) : Host.Outcome State Fault Refusal :=
  if s.lock = false then .next s
  else
    match engineNext s.seq s.sr with
    | none => .fault .sequencerOutsideTables
    | some .release => .next s.release
    | some (.perform op) =>
      match decode (.lop op.code) with
      | .error _ => .fault .sequencerOutsideTables
      | .ok i => andThen (exec i s) (fun t => (t.storeSample op s.sdaIn).advance)

/-- The primitive at whose first line operation the sequencer stands, if it stands at one (R27). -/
def State.primitiveAt (s : State) : Option PrimSel :=
  if s.lock = true ∧ s.seq.pstep = 0 ∧ s.seq.prim ≠ .nothing ∧
      stepTable s.seq.cmdk s.seq.tstep = some (.call s.seq.prim)
  then some s.seq.prim else none

/-- One engine step at the grain of a primitive: run the primitive the sequencer stands at the start of to its end
and return to the transaction (R109). Elsewhere it is one engine step. -/
def State.primitiveStep (s : State) : Host.Outcome State Fault Refusal :=
  match s.primitiveAt with
  | none => s.engineStep
  | some p =>
    match decode (.prim p.code) with
    | .error _ => .fault .sequencerOutsideTables
    | .ok i => andThen (exec i s) State.finishStep

end Sys2Proof.Machine
end

