-- ==== Sys2Proof/Machine/Agents.lean ====
section
/-!
DEFINITION. The moves of all agents of one bus instance (R7): the requesters' post and take, the platform's
configuration input, the classification of a posted command with the arbiter's grant (R141, R142, R144), and the
engine's steps. A move that is not enabled changes nothing.
-/

namespace Sys2Proof.Machine

/-- The operands of a transaction command, with `DAT = 0` for `RDREG` (R25, R142). -/
def transactionOf (i : Instr) : Option (CmdK × BitVec 7 × BitVec 8 × BitVec 8) :=
  match i with
  | .wrreg dev reg val => some (.wrreg, dev, reg, val)
  | .rdreg dev reg     => some (.rdreg, dev, reg, 0#8)
  | .init   => none
  | .start  => none
  | .stop   => none
  | .noack  => none
  | .wrbyte => none
  | .rdbyte => none
  | .setc _ => none
  | .setd _ => none
  | .getd   => none
  | .dly    => none

/-- Answer the posted command of requester `p`: an illegal word is refused (R79), and a command goes on with `run`.
Nothing happens when no command of `p` is pending (R141). -/
def State.answer (p : Nat) (run : Instr → State → Host.Outcome State Fault Refusal) (s : State) :
    Host.Outcome State Fault Refusal :=
  match s.slot? p with
  | none => .next s
  | some sl =>
    if sl.pending then
      match decode (.cmd sl.reqCw) with
      | .error _ => .next (s.refuse p .illegalCommand)
      | .ok i => run i { s with issuer := p }
    else .next s

/-- The classification step of R141 for one command: a transaction command is refused, waits, or acquires the lock
(R142); `INIT` is executed (R140). -/
def grantInstr (i : Instr) (s : State) : Host.Outcome State Fault Refusal :=
  match transactionOf i with
  | some (k, dev, reg, dat) => .next (s.withLock k dev reg dat id)
  | none => exec i s

/-- The move `grant p` (R141, R142). -/
def State.grantStep (p : Nat) (s : State) : Host.Outcome State Fault Refusal := s.answer p grantInstr

/-- The move `command p`: run the posted command of `p` from acceptance to result (R29). -/
def State.commandStep (p : Nat) (s : State) : Host.Outcome State Fault Refusal := s.answer p exec

/-- One move of one agent. -/
def runMove (m : Move) (s : State) : Host.Outcome State Fault Refusal :=
  match m with
  | .post p cw  => .next (s.post p cw)
  | .take p     => .next (s.take p)
  | .present v  => .next { s with cfgTimeout := v }
  | .grant p    => s.grantStep p
  | .engine     => s.engineStep
  | .primitive  => s.primitiveStep
  | .command p  => s.commandStep p

/-- The move made next: the first listed one, or else a free one (log 9). -/
def State.nextMove (s : State) : Move :=
  match s.moves with
  | m :: _ => m
  | []     => Config.freeMove s.bus s.tick

/-- The state with the move made next removed from what is to come. -/
def State.popMove (s : State) : State :=
  match s.moves with
  | _ :: ms => { s with moves := ms }
  | []      => { s with tick := s.tick + 1 }

/-- Put a move before all listed ones. -/
def State.pushMove (m : Move) (s : State) : State := { s with moves := m :: s.moves }

/-- Requester 0 with the command word `cw` posted and nothing else pending (R36). -/
def State.placeCommand (cw : BitVec 32) (s : State) : State :=
  match s.slots with
  | [] => { s with slots := [⟨true, cw, false, 0#32⟩] }
  | sl :: rest => { s with slots := { sl with reqValid := true, reqCw := cw, rspValid := false } :: rest }

/-- The engine at a given position of its step tables, holding the lock for requester 0 (R27, R35). -/
def State.placeAt (q : Seq) (s : State) : State := { s with regd := true, lock := true, owner := 0, seq := q }

/-- The sequencer position at which an instruction of the engine's own layers comes next (R101 to R105, R120, R121);
idle for a host command, which is not fetched from the step tables. -/
def seqFor (i : Instr) : Seq :=
  match i with
  | .wrreg _ _ _ => Seq.idle
  | .rdreg _ _   => Seq.idle
  | .init        => Seq.idle
  | .start       => ⟨.wrreg, 0, .start, 0⟩
  | .stop        => ⟨.wrreg, 6, .stop, 0⟩
  | .noack       => ⟨.rdreg, 11, .noack, 0⟩
  | .wrbyte      => ⟨.wrreg, 1, .wrbyte, 0⟩
  | .rdbyte      => ⟨.rdreg, 10, .rdbyte, 0⟩
  | .setc true   => ⟨.wrreg, 0, .start, 1⟩
  | .setc false  => ⟨.wrreg, 0, .start, 5⟩
  | .setd true   => ⟨.wrreg, 0, .start, 0⟩
  | .setd false  => ⟨.wrreg, 0, .start, 3⟩
  | .getd        => ⟨.wrreg, 1, .wrbyte, 35⟩
  | .dly         => ⟨.wrreg, 0, .start, 2⟩

/-- The state in which the very next step fetches and runs an instruction (log 13). A host command is posted by
requester 0 with the lock free, and a transaction command on a registered instance. An instruction of the lower
layers stands next in the step tables of a command in flight. -/
def State.placeInstr (w : BitVec 32) (i : Instr) (s : State) : State :=
  match i with
  | .wrreg _ _ _ => { s.placeCommand w with regd := true, lock := false, seq := Seq.idle } |>.pushMove (.command 0)
  | .rdreg _ _   => { s.placeCommand w with regd := true, lock := false, seq := Seq.idle } |>.pushMove (.command 0)
  | .init        => s.placeCommand w |>.pushMove (.command 0)
  | .start       => s.placeAt (seqFor i) |>.pushMove .primitive
  | .stop        => s.placeAt (seqFor i) |>.pushMove .primitive
  | .noack       => s.placeAt (seqFor i) |>.pushMove .primitive
  | .wrbyte      => s.placeAt (seqFor i) |>.pushMove .primitive
  | .rdbyte      => s.placeAt (seqFor i) |>.pushMove .primitive
  | .setc _      => s.placeAt (seqFor i) |>.pushMove .engine
  | .setd _      => s.placeAt (seqFor i) |>.pushMove .engine
  | .getd        => s.placeAt (seqFor i) |>.pushMove .engine
  | .dly         => s.placeAt (seqFor i) |>.pushMove .engine

/-- The state in which the very next step meets the bits of a row of the opcode table: the instruction they decode
to, or, where they decode to nothing, the command word posted by requester 0. -/
def State.placeWord (nbits w : Nat) (s : State) : State :=
  match decodeTableWord nbits w with
  | some i => s.placeInstr (BitVec.ofNat 32 w) i
  | none   => s.placeCommand (BitVec.ofNat 32 w) |>.pushMove (.command 0)

end Sys2Proof.Machine
end

