-- ==== Sys2Proof/Machine/Step.lean ====
section
/-!
DEFINITION. One step of the machine: one move of one agent (R28, R145, R156).
-/

namespace Sys2Proof.Machine

/-- One step: the agent whose move is next makes it. -/
def step (s : State) : Host.Outcome State Fault Refusal := runMove s.nextMove s.popMove

/-- The state with the bits of a row of the opcode table placed where the next step fetches its instruction. -/
def State.withFetchWord (s : State) (nbits w : Nat) : State := s.placeWord nbits w

end Sys2Proof.Machine
end

