-- ==== Sys2Proof/Machine/System.lean ====
section
/-!
DEFINITION. A system of `NBUS` independent bus instances (R8, R20, R98, R163): a list of states of one instance, and the
step of one of them.
-/

namespace Sys2Proof.Machine

/-- The bus instances of a system, by index. -/
abbrev System := List State

/-- The instance of index `k` right after reset (R20, R42). Its index gives it environment levels, moves of its
agents and a `CFG_TIMEOUT` of its own. No rule relates these inputs from one instance to another, and here nothing does:
each is a free value for each index (DESIGN CHOICE, log 23). -/
def State.resetAt (k : Nat) : State := { State.reset with bus := k, cfgTimeout := Config.cfgTimeoutAtReset k }

/-- The system right after reset: the instances `0 .. NBUS-1`, each in the reset state of its index (R20, R42). -/
def System.reset : System := (List.range Config.nbus).map State.resetAt

/-- One step of instance `k`; there is nothing to step where there is no such instance. -/
def System.stepAt (k : Nat) (sys : System) : Host.Outcome System Fault Refusal :=
  match sys[k]? with
  | none => .next sys
  | some s =>
    match step s with
    | .next t    => .next (sys.set k t)
    | .fault r   => .fault r
    | .refused r => .refused r

end Sys2Proof.Machine
end

