-- ==== Sys2Proof/Safety.lean ====
section
/-!
DEFINITION. The terms in which claims about runs are stated: the traces of primitives and transactions (R101 to R105,
R120, R121), patterns and counts (R12, R129, R184), the legality of a state (R27, R35, R36, R41), the lifecycle
(R147) and the end of a run (R148).
-/

namespace Sys2Proof.Machine

/-! ### Traces -/

/-- The trace of `START`: `D1 C1 T D0 T C0` (R101). -/
def startTrace : List Token := [.d high, .c high, .t, .d low, .t, .c low]

/-- The trace of `STOP`: `D0 T C1 T D1 T` (R102). -/
def stopTrace : List Token := [.d low, .t, .c high, .t, .d high, .t]

/-- The trace of `NOACK`: `T D1 C1 T C0 T D0 T` (R103). -/
def noackTrace : List Token := [.t, .d high, .c high, .t, .c low, .t, .d low, .t]

/-- One cell of `WRBYTE` with bit `b`: `Db C1 T C0` (R104). -/
def sendTrace (b : Level) : List Token := [.d b, .c high, .t, .c low]

/-- The eight data cells of `WRBYTE v` and the start of its acknowledgment slot, up to the sample (R104). -/
def wrbyteLead (v : BitVec 8) : List Token :=
  sendTrace (v.getLsbD 7) ++ sendTrace (v.getLsbD 6) ++ sendTrace (v.getLsbD 5) ++ sendTrace (v.getLsbD 4) ++
  sendTrace (v.getLsbD 3) ++ sendTrace (v.getLsbD 2) ++ sendTrace (v.getLsbD 1) ++ sendTrace (v.getLsbD 0) ++
  [.d high, .c high, .t]

/-- The trace of `WRBYTE v` with the level `r` sampled in the acknowledgment slot (R104). -/
def wrbyteTrace (v : BitVec 8) (r : Level) : List Token :=
  wrbyteLead v ++ [.g r, .c low]

/-- One cell of `RDBYTE` with the level `r` sampled: `T C1 G=r C0` (R105). -/
def recvTrace (r : Level) : List Token := [.t, .c high, .g r, .c low]

/-- The trace of `RDBYTE` with the bits of `v` sampled, bit 7 first (R105). -/
def rdbyteTrace (v : BitVec 8) : List Token :=
  [.d high] ++ recvTrace (v.getLsbD 7) ++ recvTrace (v.getLsbD 6) ++ recvTrace (v.getLsbD 5) ++
  recvTrace (v.getLsbD 4) ++ recvTrace (v.getLsbD 3) ++ recvTrace (v.getLsbD 2) ++ recvTrace (v.getLsbD 1) ++
  recvTrace (v.getLsbD 0)

/-- The operations of an `RDBYTE` before the sample of cell `j`, the cells before it having sampled the bits of `v`
(R105). -/
def rdbyteLead (v : BitVec 8) (j : Nat) : List Token :=
  [.d high] ++ (List.range j).flatMap (fun i => recvTrace (v.getLsbD (7 - i))) ++ [.t, .c high]

/-- The trace of a `WRREG` or `RDREG` whose first address byte is not acknowledged (R120, R121). -/
def absentTrace (dev : BitVec 7) : List Token :=
  startTrace ++ wrbyteTrace (addressByte dev Config.writeBit) high ++ stopTrace

/-- The trace of a `WRREG` whose address byte is acknowledged; `a2` and `a3` are the levels sampled after the register
address and the data byte (R120). -/
def writeTrace (dev : BitVec 7) (reg val : BitVec 8) (a2 a3 : Level) : List Token :=
  startTrace ++ wrbyteTrace (addressByte dev Config.writeBit) low ++ [Token.t] ++ wrbyteTrace reg a2 ++ [Token.t] ++
  wrbyteTrace val a3 ++ stopTrace

/-- The trace of the first frame of an `RDREG`, and of the second up to its address byte (R121, R126). -/
def selectTrace (dev : BitVec 7) (reg : BitVec 8) (a2 a3 : Level) : List Token :=
  startTrace ++ wrbyteTrace (addressByte dev Config.writeBit) low ++ [Token.t] ++ wrbyteTrace reg a2 ++ [Token.t] ++
  stopTrace ++ [Token.t] ++ startTrace ++ wrbyteTrace (addressByte dev Config.readBit) a3

/-- The trace of an `RDREG` whose second address byte is not acknowledged (R121). -/
def unreadTrace (dev : BitVec 7) (reg : BitVec 8) (a2 : Level) : List Token :=
  selectTrace dev reg a2 high ++ stopTrace

/-- The trace of an `RDREG` with both address bytes acknowledged, sampling the byte `v` (R121). -/
def readTrace (dev : BitVec 7) (reg v : BitVec 8) (a2 : Level) : List Token :=
  selectTrace dev reg a2 low ++ [Token.t] ++ rdbyteTrace v ++ noackTrace ++ stopTrace

/-! ### Patterns and counts -/

/-- The line operation of a token. -/
def tokenOp : Token → LineOp
  | .c l => .setc l
  | .d l => .setd l
  | .g _ => .getd
  | .t   => .dly

/-- The clock latch after a token. -/
def sclAfter (tok : Token) (scl : Level) : Level :=
  match tok with
  | .c l => l
  | .d _ => scl
  | .g _ => scl
  | .t   => scl

/-- The data latch after a token. -/
def sdaAfter (tok : Token) (sda : Level) : Level :=
  match tok with
  | .c _ => sda
  | .d l => l
  | .g _ => sda
  | .t   => sda

/-- The Start and Stop patterns of a trace entered at levels `(scl, sda)`, in time order (R12). -/
def patterns : List Token → Level → Level → List Pattern
  | [], _, _ => []
  | tok :: rest, scl, sda =>
    (patternOf (tokenOp tok) scl sda).toList ++ patterns rest (sclAfter tok scl) (sdaAfter tok sda)

/-- What an environment becomes over a trace entered at levels `(scl, sda)` (R65). -/
def watch : List Token → Level → Level → Environment → Environment
  | [], _, _, e => e
  | tok :: rest, scl, sda, e =>
    watch rest (sclAfter tok scl) (sdaAfter tok sda) (e.observe (tokenOp tok) scl sda)

/-- The level the environment presents to a sample taken after the trace `lead` performed from `s` (R65, R93). -/
def presentedAfter (s : State) (lead : List Token) : Level :=
  (watch lead s.sclOut s.sdaOut s.env).presents s.bus (s.trace ++ lead)

/-- A state after the line operations of a trace, apart from what a primitive does with its samples: the latches, the
environment and the trace move on, and nothing else (R90, R91, R93, R94). -/
def State.after (s : State) (tr : List Token) : State :=
  { s with
    sclOut := tr.foldl (fun l tok => sclAfter tok l) s.sclOut
    sdaOut := tr.foldl (fun l tok => sdaAfter tok l) s.sdaOut
    env := watch tr s.sclOut s.sdaOut s.env
    trace := s.trace ++ tr }

/-- The number of `DLY` operations of a trace (R184). -/
def delayCount (tr : List Token) : Nat := tr.count .t

/-- The number of samples of a trace (R129). -/
def sampleCount (tr : List Token) : Nat := tr.count (.g low) + tr.count (.g high)

/-- The number of `C1` operations of a trace (R129). -/
def pulseCount (tr : List Token) : Nat := tr.count (.c high)

/-- The lower bound on the duration of a trace, in microseconds (R184). -/
def minDuration (tr : List Token) : Nat := delayCount tr * Config.delayUs

/-- The samples of a trace, oldest first. -/
def samples (tr : List Token) : List Level :=
  tr.filterMap fun
    | .g r => some r
    | .c _ => none
    | .d _ => none
    | .t   => none

/-! ### Answers -/

/-- The slots after requester `p` is answered with the result word `rw`: its own slot alone changes (R143, R154). -/
def answered (p : Nat) (rw : BitVec 32) (slots : List Slot) : List Slot :=
  slots.modify p (fun sl => { sl with reqValid := false, rspValid := true, rspRw := rw })

/-- The block's state after a completed transaction of requester `s.issuer` that performed the trace `tr`, apart from its
flags and data registers: the operands stay in the latches, the lock is free, the sequencer and the lines are idle, and
the result word is delivered (R120, R121, R127, R143). -/
def State.afterTransaction (s : State) (dev : BitVec 7) (reg dat : BitVec 8) (dir : Bool) (rw : BitVec 32)
    (tr : List Token) : State :=
  { s with
    sclOut := high, sdaOut := high
    dev := dev, reg := reg, dat := dat, dir := dir
    seq := Seq.idle, lock := false, owner := s.issuer
    slots := answered s.issuer rw s.slots
    env := watch tr s.sclOut s.sdaOut s.env
    trace := s.trace ++ tr }

/-! ### Legal states -/

/-- The lines are idle: both commanded high (R13, R40). -/
def State.linesIdle (s : State) : Bool := s.sclOut && s.sdaOut

/-- `SEQ` is idle exactly when the lock is free, and otherwise points into the step tables (R27, R35). -/
def State.seqLegal (s : State) : Bool :=
  if s.lock then (engineNext s.seq s.sr).isSome else s.seq = Seq.idle

/-- The levels the latches hold when the sequencer is about to perform index `k` of a primitive (R41, R107). -/
def primLines (p : PrimSel) (v : BitVec 8) (k : Nat) (scl sda : Level) : Bool :=
  match p with
  | .nothing => true
  | .start =>
    match k with
    | 0 => true
    | 1 => sda == high
    | 2 => scl == high && sda == high
    | 3 => scl == high && sda == high
    | 4 => scl == high && sda == low
    | _ => scl == high && sda == low
  | .stop =>
    match k with
    | 0 => scl == low
    | 1 => scl == low && sda == low
    | 2 => scl == low && sda == low
    | 3 => scl == high && sda == low
    | 4 => scl == high && sda == low
    | _ => scl == high && sda == high
  | .noack =>
    match k with
    | 0 => scl == low && sda == high
    | 1 => scl == low && sda == high
    | 2 => scl == low && sda == high
    | 3 => scl == high && sda == high
    | 4 => scl == high && sda == high
    | 5 => scl == low && sda == high
    | 6 => scl == low && sda == high
    | _ => scl == low && sda == low
  | .wrbyte =>
    if k < 32 then
      match k % 4 with
      | 0 => scl == low
      | 1 => scl == low && sda == v.getLsbD (7 - k / 4)
      | _ => scl == high && sda == v.getLsbD (7 - k / 4)
    else
      match k with
      | 32 => scl == low
      | 33 => scl == low && sda == high
      | _  => scl == high && sda == high
  | .rdbyte =>
    match k % 4 with
    | 1 => scl == low && sda == high
    | 2 => scl == low && sda == high
    | 0 => if k = 0 then scl == low && sda == high else scl == high && sda == high
    | _ => scl == high && sda == high

/-- The levels the latches hold at the sequencer position of a command in flight (R41, R107). At a bare delay and at
the release they are those of the end of the primitive before. -/
def State.linesLegal (s : State) : Bool :=
  match s.seq.prim with
  | .nothing =>
    match s.seq.cmdk, s.seq.tstep with
    | .wrreg, 7  => s.linesIdle
    | .rdreg, 6  => s.linesIdle
    | .rdreg, 13 => s.linesIdle
    | _, _       => s.sclOut == low && s.sdaOut == high
  | p => primLines p s.sr s.seq.pstep s.sclOut s.sdaOut

/-- The sequencer points into the step tables and the latches are as that position has them, only a registered instance
is locked, and the lines are idle whenever the lock is free and something has been traced (R27, R40, R41, R147). -/
def State.EngineInv (s : State) : Prop :=
  s.seqLegal = true ∧
  (s.lock = true → s.regd = true) ∧
  (s.lock = true → s.linesLegal = true) ∧
  (s.lock = false → s.trace ≠ [] → s.linesIdle = true)

/-- The posted word of the owner of the lock is the transaction command in flight, with its operands in the latches, and
awaits its result (R25, R35, R36). -/
def State.OwnerInv (s : State) : Prop :=
  s.lock = true → s.regd = true ∧
    ∃ sl, s.slot? s.owner = some sl ∧ sl.reqValid = true ∧ sl.rspValid = false ∧
      ((s.seq.cmdk = .wrreg ∧ s.dir = false ∧ decodeCommand sl.reqCw = .ok (.wrreg s.dev s.reg s.dat)) ∨
       (s.seq.cmdk = .rdreg ∧ s.dir = true ∧ s.dat = 0#8 ∧ decodeCommand sl.reqCw = .ok (.rdreg s.dev s.reg)))

/-- No slot holds a posted command and a waiting result at once (R36). -/
def State.SlotsInv (s : State) : Prop :=
  ∀ sl ∈ s.slots, sl.reqValid = true → sl.rspValid = false

/-- A result word of the form R76 allows: only fields `WSTAT`, `CODE` and `DATA`, a code of at most 4, and neither
data nor a write status beside a code that is not `OK` (R76). -/
def resultWordLegal (rw : BitVec 32) : Bool :=
  decide (rw.extractLsb' 13 19 = 0#19) && decide ((rwCode rw).toNat ≤ 4) &&
  (decide (rwCode rw = 0#4) || (decide (rwData rw = 0#8) && !rwWstat rw))

/-- Every result word delivered and every one taken is legal. While a command is in flight, a recorded failure means that
only the final `STOP` and the release remain and that there is no write status, and a write status means that a `WRREG`
has sent its data byte (R31, R32, R76, R157). -/
def State.ResultsInv (s : State) : Prop :=
  (∀ sl ∈ s.slots, sl.rspValid = true → resultWordLegal sl.rspRw = true) ∧
  (∀ x ∈ s.taken, resultWordLegal x.2 = true) ∧
  (s.lock = true → s.fail = true → finalStop s.seq.cmdk ≤ s.seq.tstep ∧ s.wstat = false) ∧
  (s.lock = true → s.wstat = true → s.seq.cmdk = .wrreg ∧ 6 ≤ s.seq.tstep)

/-- The register file of the attached responder is in canonical form (log 12). -/
def State.MemoryInv (s : State) : Prop := Memory.wf s.memory = true

/-- A registered instance has a timeout, which is not zero (R33, R140). -/
def State.TimeoutInv (s : State) : Prop := s.regd = true → s.timeout ≠ 0#32

/-- The entries of requester `p` in a record of words and their requesters, oldest first. -/
def wordsOf (p : Nat) (record : List (Nat × BitVec 32)) : List (BitVec 32) :=
  (record.filter (fun x => x.1 == p)).map Prod.snd

/-- The command words requester `p` has posted, in order (R145). -/
def State.postedBy (p : Nat) (s : State) : List (BitVec 32) := wordsOf p s.posted

/-- The result words requester `p` has taken, in order (R145). -/
def State.takenBy (p : Nat) (s : State) : List (BitVec 32) := wordsOf p s.taken

/-- Each requester has taken one result for each command it has posted, but for the one outstanding, which is in its
slot, posted or answered (R36, R145). -/
def State.AccountInv (s : State) : Prop :=
  s.SlotsInv ∧ s.OwnerInv ∧
  ∀ (p : Nat) (sl : Slot), s.slot? p = some sl →
    (s.postedBy p).length = (s.takenBy p).length + (if sl.free then 0 else 1)

/-- The states of the lifecycle of an instance (R147). -/
inductive Lifecycle where
  | unregistered
  | registeredIdle
  | registeredBusy
  deriving DecidableEq, Repr

/-- Where an instance is in its lifecycle (R147). -/
def State.lifecycle (s : State) : Lifecycle :=
  if s.regd then (if s.lock then .registeredBusy else .registeredIdle) else .unregistered

/-- The commands each requester has to post, by its index, none beyond the end of the list (R148). -/
abbrev Programs := List (List (BitVec 32))

/-- Requester `p` has posted all the commands of its program, and taken as many results (R148). -/
def State.programDone (progs : Programs) (p : Nat) (s : State) : Bool :=
  decide (s.postedBy p = progs.getD p []) && decide ((s.takenBy p).length = (progs.getD p []).length)

/-- The run of a finite program is over: every requester has posted all its commands and taken all its results, no slot
holds a command or a result, the lock is free and the sequencer idle (R148). -/
def State.runOver (progs : Programs) (s : State) : Bool :=
  (List.range (max s.slots.length progs.length)).all (fun p => s.programDone progs p) &&
  s.slots.all (fun sl => sl.free) && !s.lock && decide (s.seq = Seq.idle)

/-- `n` engine steps (R28), with no other agent between. -/
def engineSteps : Nat → State → Host.Outcome State Fault Refusal
  | 0, s => .next s
  | n + 1, s =>
    match s.engineStep with
    | .next t    => engineSteps n t
    | .fault r   => .fault r
    | .refused r => .refused r

/-- `n` engine steps end at a state. -/
def State.reachesBy (s : State) (n : Nat) (t : State) : Prop := engineSteps n s = .next t

/-- A safe step: it does not stop the machine. -/
def State.safeStep (s : State) : Prop := ∃ t, step s = .next t

end Sys2Proof.Machine
end

