-- ==== Sys2Proof/Certificates/Slice0/Obligations.lean ====
section
/-!
DEFINITION. The statements. Each docstring names the rule or the section of the spec it rests on.
-/

open Sys2Proof Sys2Proof.Machine

/-! ### Encodings -/

/-- Words written out from the encodings of 30_encoding.md (R75, R77, R78) decode to their instructions, and illegal
ones are refused. A sanity statement on fixed words. -/
def Obligations.SpecWordsDecodeToTheirInstructions : Prop :=
  decode (.cmd 0x102101FF#32) = .ok (.wrreg 0x21#7 0x01#8 0xFF#8) ∧
  decode (.cmd 0x20210100#32) = .ok (.rdreg 0x21#7 0x01#8) ∧
  decode (.cmd 0x30000000#32) = .ok .init ∧
  decode (.cmd 0x00000000#32) = .error .illegalCommand ∧
  decode (.cmd 0x10800000#32) = .error .illegalCommand ∧
  decode (.prim 0b001#3) = .ok .start ∧ decode (.prim 0b010#3) = .ok .stop ∧
  decode (.prim 0b011#3) = .ok .noack ∧ decode (.prim 0b100#3) = .ok .wrbyte ∧
  decode (.prim 0b101#3) = .ok .rdbyte ∧
  decode (.lop 0b000#3) = .ok (.setc low) ∧ decode (.lop 0b001#3) = .ok (.setc high) ∧
  decode (.lop 0b010#3) = .ok (.setd low) ∧ decode (.lop 0b011#3) = .ok (.setd high) ∧
  decode (.lop 0b100#3) = .ok .getd ∧ decode (.lop 0b110#3) = .ok .dly

/-- Decoding the code of any instruction gives it back, with every operand (R74, R75, R77, R78, R81). -/
def Obligations.DecodeOfEncodeIsTheInstruction : Prop :=
  ∀ i : Instr, decode (encode i) = .ok i

/-- A code word that decodes to an instruction is the code of that instruction: no two words are one instruction
(R74, R75, R77, R78, R81). -/
def Obligations.EncodeOfDecodeIsTheCodeWord : Prop :=
  ∀ (x : CodeWord) (i : Instr), decode x = .ok i → encode i = x

/-- The row of the opcode table that selects a code word is the row of the instruction it decodes to, for every word of
the three code spaces (R75, R77, R78). -/
def Obligations.RowsSelectExactlyTheirInstruction : Prop :=
  ∀ r ∈ opcodeTable, ∀ x : CodeWord,
    r.selects x = true ↔ ∃ i : Instr, decode x = .ok i ∧ i.mnemonic = r.mnemonic

/-- R79: which command words are illegal, what is done with one, and the codes that name nothing and cannot arise: no
primitive selector and no line operation has one, and none stands on port `lop_word` in any state. -/
def Obligations.IllegalCommandWordsAreRefused : Prop :=
  (∀ w : BitVec 32, decode (.cmd w) = .error .illegalCommand ↔
    (w.extractLsb' 28 4 = 0x0#4 ∨ 0x4#4 ≤ w.extractLsb' 28 4) ∨
    ((w.extractLsb' 28 4 = 0x1#4 ∨ w.extractLsb' 28 4 = 0x2#4) ∧ w.extractLsb' 23 5 ≠ 0#5) ∨
    (w.extractLsb' 28 4 = 0x2#4 ∧ fieldDat w ≠ 0#8) ∨
    (w.extractLsb' 28 4 = 0x3#4 ∧ w.extractLsb' 0 28 ≠ 0#28)) ∧
  (∀ (s : State) (p : Nat) (sl : Slot), s.slot? p = some sl → sl.pending = true →
    decode (.cmd sl.reqCw) = .error .illegalCommand →
    runMove (.grant p) s = .next { s with slots := answered p 0x00000400#32 s.slots } ∧
    runMove (.command p) s = .next { s with slots := answered p 0x00000400#32 s.slots }) ∧
  decode (.prim 0b110#3) = .error .noPrimitive ∧ decode (.prim 0b111#3) = .error .noPrimitive ∧
  decode (.lop 0b101#3) = .error .noLineOperation ∧ decode (.lop 0b111#3) = .error .noLineOperation ∧
  (∀ p : PrimSel, p.code ≠ 0b110#3 ∧ p.code ≠ 0b111#3) ∧
  (∀ op : LineOp, op.code ≠ 0b101#3 ∧ op.code ≠ 0b111#3) ∧
  (∀ (s : State) (c : BitVec 3), s.lopWord = some c → c ≠ 0b101#3 ∧ c ≠ 0b111#3)

/-- The address byte holds the device address in bits 7:1 and the direction bit in bit 0 (30_encoding.md section 1). -/
def Obligations.AddressByteHoldsDeviceAndDirection : Prop :=
  ∀ (dev : BitVec 7) (dirbit : Level),
    (addressByte dev dirbit).extractLsb' 1 7 = dev ∧ (addressByte dev dirbit).getLsbD 0 = dirbit

/-- The fields of a result word read back, the bits above them are 0, and each code has its number (30_encoding.md
section 3). -/
def Obligations.ResultWordFieldsReadBack : Prop :=
  ∀ (wstat : Bool) (code : ResultCode) (data : BitVec 8),
    rwWstat (resultWord wstat code data) = wstat ∧ rwData (resultWord wstat code data) = data ∧
    (resultWord wstat code data).extractLsb' 13 19 = 0#19 ∧
    rwCode (resultWord wstat code data) = match code with
      | .ok => 0#4
      | .deviceNotFound => 1#4
      | .busNotFound => 2#4
      | .registrationConflict => 3#4
      | .illegalCommand => 4#4

/-! ### Line operations -/

/-- R90: `SETC l` writes the clock latch, also when it repeats the level, and appends its token; nothing else of the block
changes. -/
def Obligations.SetcCommandsTheClockLine : Prop :=
  ∀ (l : Bool) (s : State),
    encode (.setc l) = .lop (if l then 0b001#3 else 0b000#3) ∧
    exec (.setc l) s = .next { s with
      sclOut := l
      env := s.env.observe (.setc l) s.sclOut s.sdaOut
      trace := s.trace ++ [.c l] }

/-- R91: `SETD l` writes the data latch, also when it repeats the level, and appends its token; on which levels it is a
Start or a Stop pattern; nothing else of the block changes. -/
def Obligations.SetdCommandsTheDataLine : Prop :=
  ∀ (l : Bool) (s : State),
    encode (.setd l) = .lop (if l then 0b011#3 else 0b010#3) ∧
    exec (.setd l) s = .next { s with
      sdaOut := l
      env := s.env.observe (.setd l) s.sclOut s.sdaOut
      trace := s.trace ++ [.d l] } ∧
    patternOf (.setd l) s.sclOut s.sdaOut =
      if s.sclOut = high ∧ s.sdaOut = high ∧ l = low then some .start
      else if s.sclOut = high ∧ s.sdaOut = low ∧ l = high then some .stop
      else none

/-- R93: `GETD` records the level the environment presents and writes no state of the block; an unconstrained environment
may present either level. -/
def Obligations.GetdSamplesThePresentedLevel : Prop :=
  ∀ s : State,
    encode .getd = .lop 0b100#3 ∧
    exec .getd s = .next { s with
      env := s.env.observe .getd s.sclOut s.sdaOut
      trace := s.trace ++ [.g s.sdaIn] } ∧
    ∀ (r : Level) (ls : List Level),
      exec .getd { s with env := .levels (r :: ls) } =
        .next { s with env := .levels ls, trace := s.trace ++ [.g r] }

/-- R94: `DLY` records its token and changes no state. -/
def Obligations.DlyOnlyRecordsItself : Prop :=
  ∀ s : State,
    encode .dly = .lop 0b110#3 ∧ exec .dly s = .next { s with trace := s.trace ++ [.t] }

/-! ### Primitives -/

/-- R101: `START` from any levels: its trace, its exit levels, its patterns, and nothing else of the block changes. -/
def Obligations.StartMakesTheStartPattern : Prop :=
  ∀ s : State,
    encode .start = .prim 0b001#3 ∧
    exec .start s = .next { s with
      sclOut := low, sdaOut := low
      env := watch startTrace s.sclOut s.sdaOut s.env
      trace := s.trace ++ [.d high, .c high, .t, .d low, .t, .c low] } ∧
    patterns startTrace s.sclOut s.sdaOut =
      if s.sclOut = high ∧ s.sdaOut = low then [.stop, .start] else [.start]

/-- R102: `STOP` from any levels: its trace, its exit in the idle state, and nothing else of the block changes; with the
clock low at entry its one pattern is a Stop. -/
def Obligations.StopLeavesTheLinesIdle : Prop :=
  ∀ s : State,
    encode .stop = .prim 0b010#3 ∧
    exec .stop s = .next { s with
      sclOut := high, sdaOut := high
      env := watch stopTrace s.sclOut s.sdaOut s.env
      trace := s.trace ++ [.d low, .t, .c high, .t, .d high, .t] } ∧
    (s.sclOut = low → patterns stopTrace s.sclOut s.sdaOut = [.stop])

/-- R103: `NOACK` from any levels: its trace, its exit levels, and nothing else of the block changes, `ACK` least of all;
entered as after `RDBYTE` it makes no pattern. -/
def Obligations.NoackPulsesTheClockOnce : Prop :=
  ∀ s : State,
    encode .noack = .prim 0b011#3 ∧
    exec .noack s = .next { s with
      sclOut := low, sdaOut := low
      env := watch noackTrace s.sclOut s.sdaOut s.env
      trace := s.trace ++ [.t, .d high, .c high, .t, .c low, .t, .d low, .t] } ∧
    (s.sclOut = low → s.sdaOut = high → patterns noackTrace s.sclOut s.sdaOut = [])

/-- R104: `WRBYTE v`, with `v` in `SR`, from any levels: its trace with the bits most significant first, its exit levels,
and the level presented in the acknowledgment slot in `ACK`; nothing else of the block changes; entered with the clock low
it makes no pattern. -/
def Obligations.WrbyteSendsEightBitsAndSamplesTheAcknowledgment : Prop :=
  ∀ s : State,
    encode .wrbyte = .prim 0b100#3 ∧
    exec .wrbyte s = .next { s with
      sclOut := low, sdaOut := high
      ack := presentedAfter s (wrbyteLead s.sr)
      env := watch (wrbyteTrace s.sr (presentedAfter s (wrbyteLead s.sr))) s.sclOut s.sdaOut s.env
      trace := s.trace ++ wrbyteTrace s.sr (presentedAfter s (wrbyteLead s.sr)) } ∧
    (s.sclOut = low → ∀ r : Level, patterns (wrbyteTrace s.sr r) s.sclOut s.sdaOut = [])

/-- R105: `RDBYTE` from any levels: it takes eight samples into `SR`, the first into bit 7, whatever `SR` held; its trace, its
exit levels, and nothing else of the block changes, `ACK` least of all. -/
def Obligations.RdbyteAssemblesEightSamples : Prop :=
  ∀ s : State,
    encode .rdbyte = .prim 0b101#3 ∧
    ∃ v : BitVec 8,
      (∀ j < 8, v.getLsbD (7 - j) = presentedAfter s (rdbyteLead v j)) ∧
      exec .rdbyte s = .next { s with
        sr := v
        sclOut := low, sdaOut := high
        env := watch (rdbyteTrace v) s.sclOut s.sdaOut s.env
        trace := s.trace ++ rdbyteTrace v }

/-- Eight samples accumulated from any value of `SR` give the sum of `r_j * 2^(7-j)`: the clear before them is not observable
(41_bit_signaling.md section 3). -/
def Obligations.EightSamplesReplaceTheShiftRegister : Prop :=
  ∀ (v : BitVec 8) (r0 r1 r2 r3 r4 r5 r6 r7 : Level),
    shiftIn (shiftIn (shiftIn (shiftIn (shiftIn (shiftIn (shiftIn (shiftIn v r0) r1) r2) r3) r4) r5) r6) r7 =
      assembleByte r0 r1 r2 r3 r4 r5 r6 r7

/-! ### Transactions -/

/-- R120: `WRREG` on a registered instance with the lock free completes, in every environment: with the address byte not
acknowledged the frame ends and the result is `DEVICE_NOT_FOUND`, and otherwise all three bytes are sent and the result is
`OK` with the level of the last acknowledgment slot as write status. What it leaves in every element of the state. -/
def Obligations.WrregWritesOneRegister : Prop :=
  ∀ (dev : BitVec 7) (reg val : BitVec 8) (s : State), s.regd = true → s.lock = false →
    encode (.wrreg dev reg val) =
      .cmd (0x10000000#32 ||| dev.setWidth 32 <<< 16 ||| reg.setWidth 32 <<< 8 ||| val.setWidth 32) ∧
    (let ab := addressByte dev Config.writeBit
     let a1 := presentedAfter s (startTrace ++ wrbyteLead ab)
     let a2 := presentedAfter s (startTrace ++ wrbyteTrace ab low ++ [Token.t] ++ wrbyteLead reg)
     let a3 := presentedAfter s (startTrace ++ wrbyteTrace ab low ++ [Token.t] ++ wrbyteTrace reg a2 ++ [Token.t] ++ wrbyteLead val)
     (a1 = high → exec (.wrreg dev reg val) s = .next
       { s.afterTransaction dev reg val false 0x00000100#32 (absentTrace dev) with
         sr := ab, ack := high, fail := true, wstat := false }) ∧
     (a1 = low → exec (.wrreg dev reg val) s = .next
       { s.afterTransaction dev reg val false (if a3 then 0x00001000#32 else 0x00000000#32)
           (writeTrace dev reg val a2 a3) with
         sr := val, ack := a3, fail := false, wstat := a3 }) ∧
     (absentTrace dev).length = 49 ∧ (writeTrace dev reg val a2 a3).length = 125)

/-- R121: `RDREG` on a registered instance with the lock free completes, in every environment, in one of three ways: either
address byte not acknowledged gives `DEVICE_NOT_FOUND` with no data and `RES` not written, and otherwise the byte sampled in
the second frame is the result. What it leaves in every element of the state. -/
def Obligations.RdregReadsOneRegister : Prop :=
  ∀ (dev : BitVec 7) (reg : BitVec 8) (s : State), s.regd = true → s.lock = false →
    encode (.rdreg dev reg) = .cmd (0x20000000#32 ||| dev.setWidth 32 <<< 16 ||| reg.setWidth 32 <<< 8) ∧
    (let aw := addressByte dev Config.writeBit
     let ar := addressByte dev Config.readBit
     let select := startTrace ++ wrbyteTrace aw low ++ [.t]
     let a1 := presentedAfter s (startTrace ++ wrbyteLead aw)
     let a2 := presentedAfter s (select ++ wrbyteLead reg)
     let a3 := presentedAfter s
       (select ++ wrbyteTrace reg a2 ++ [Token.t] ++ stopTrace ++ [Token.t] ++ startTrace ++ wrbyteLead ar)
     (a1 = high → exec (.rdreg dev reg) s = .next
       { s.afterTransaction dev reg 0#8 true 0x00000100#32 (absentTrace dev) with
         sr := aw, ack := high, fail := true, wstat := false }) ∧
     (a1 = low → a3 = high → exec (.rdreg dev reg) s = .next
       { s.afterTransaction dev reg 0#8 true 0x00000100#32 (unreadTrace dev reg a2) with
         sr := ar, ack := high, fail := true, wstat := false }) ∧
     (a1 = low → a3 = low → ∃ v : BitVec 8,
       (∀ j < 8, v.getLsbD (7 - j) = presentedAfter s (selectTrace dev reg a2 low ++ [Token.t] ++ rdbyteLead v j)) ∧
       exec (.rdreg dev reg) s = .next
         { s.afterTransaction dev reg 0#8 true (v.setWidth 32) (readTrace dev reg v a2) with
           sr := v, res := v, ack := low, fail := false, wstat := false } ∧
       (readTrace dev reg v a2).length = 180) ∧
     (absentTrace dev).length = 49 ∧ (unreadTrace dev reg a2).length = 138)

/-- The result of a transaction as a function of the levels an arbitrary environment presents: `a1` to `a3` in the
acknowledgment slots, and the data samples of a read (95_test_vectors.md section 2.6). -/
def Obligations.ResultIsAFunctionOfTheSamples : Prop :=
  ∀ (dev : BitVec 7) (reg val : BitVec 8) (s : State) (sl : Slot) (ls : List Level),
    s.regd = true → s.lock = false → s.slot? s.issuer = some sl →
    (∀ a1 a2 a3 : Level, s.env = .levels (a1 :: a2 :: a3 :: ls) →
      ∃ t, exec (.wrreg dev reg val) s = .next t ∧
        t.slot? s.issuer = some { sl with
          reqValid := false, rspValid := true
          rspRw := if a1 then 0x00000100#32 else if a3 then 0x00001000#32 else 0x00000000#32 } ∧
        t.env = .levels (if a1 then a2 :: a3 :: ls else ls)) ∧
    (∀ a1 a2 a3 r0 r1 r2 r3 r4 r5 r6 r7 : Level,
      s.env = .levels (a1 :: a2 :: a3 :: r0 :: r1 :: r2 :: r3 :: r4 :: r5 :: r6 :: r7 :: ls) →
      ∃ t, exec (.rdreg dev reg) s = .next t ∧
        t.slot? s.issuer = some { sl with
          reqValid := false, rspValid := true
          rspRw := if a1 then 0x00000100#32 else if a3 then 0x00000100#32
            else (assembleByte r0 r1 r2 r3 r4 r5 r6 r7).setWidth 32 } ∧
        t.env = .levels
          (if a1 then a2 :: a3 :: r0 :: r1 :: r2 :: r3 :: r4 :: r5 :: r6 :: r7 :: ls
           else if a3 then r0 :: r1 :: r2 :: r3 :: r4 :: r5 :: r6 :: r7 :: ls else ls))

/-- The operation counts of the five paths, and the lower bound on their duration (42_transactions.md section 3,
70_reset_and_hazards.md section 4). -/
def Obligations.TransactionsHaveFixedSizes : Prop :=
  ∀ (dev : BitVec 7) (reg val : BitVec 8) (s : State), s.regd = true → s.lock = false →
    (∃ (t : State) (tr : List Token), exec (.wrreg dev reg val) s = .next t ∧ t.trace = s.trace ++ tr ∧
      ((t.fail = false ∧ tr.length = 125 ∧ delayCount tr = 34 ∧ sampleCount tr = 3 ∧ pulseCount tr = 29 ∧
          minDuration tr = 34 * Config.delayUs) ∨
       (t.fail = true ∧ tr.length = 49 ∧ delayCount tr = 14 ∧ sampleCount tr = 1 ∧ pulseCount tr = 11 ∧
          minDuration tr = 14 * Config.delayUs))) ∧
    (∃ (t : State) (tr : List Token), exec (.rdreg dev reg) s = .next t ∧ t.trace = s.trace ++ tr ∧
      ((t.fail = false ∧ tr.length = 180 ∧ delayCount tr = 53 ∧ sampleCount tr = 11 ∧ pulseCount tr = 40 ∧
          minDuration tr = 53 * Config.delayUs) ∨
       (t.fail = true ∧ tr.length = 49 ∧ delayCount tr = 14 ∧ sampleCount tr = 1 ∧ pulseCount tr = 11 ∧
          minDuration tr = 14 * Config.delayUs) ∨
       (t.fail = true ∧ tr.length = 138 ∧ delayCount tr = 40 ∧ sampleCount tr = 3 ∧ pulseCount tr = 31 ∧
          minDuration tr = 40 * Config.delayUs)))

/-- The patterns of a transaction entered with the lines idle: one Start and one Stop for each frame, a Start first and a
Stop last (42_transactions.md section 2). -/
def Obligations.EveryFrameHasOneStartAndOneStop : Prop :=
  ∀ (dev : BitVec 7) (reg val : BitVec 8) (s : State),
    s.regd = true → s.lock = false → s.sclOut = high → s.sdaOut = high →
    (∃ (t : State) (tr : List Token), exec (.wrreg dev reg val) s = .next t ∧ t.trace = s.trace ++ tr ∧
      patterns tr s.sclOut s.sdaOut = [.start, .stop]) ∧
    (∃ (t : State) (tr : List Token), exec (.rdreg dev reg) s = .next t ∧ t.trace = s.trace ++ tr ∧
      (patterns tr s.sclOut s.sdaOut = [.start, .stop] ∧ t.fail = true ∨
       patterns tr s.sclOut s.sdaOut = [.start, .stop, .start, .stop]))

/-- A transaction command on an unregistered instance is refused with `BUS_NOT_FOUND`, and one on a locked instance waits:
none of its effect happens (43_bus_handle.md sections 2 and 3). -/
def Obligations.TransactionsAreRefusedOrWait : Prop :=
  ∀ (dev : BitVec 7) (reg val : BitVec 8) (s : State),
    (s.regd = false →
      exec (.wrreg dev reg val) s = .next { s with slots := answered s.issuer 0x00000200#32 s.slots } ∧
      exec (.rdreg dev reg) s = .next { s with slots := answered s.issuer 0x00000200#32 s.slots }) ∧
    (s.regd = true → s.lock = true →
      exec (.wrreg dev reg val) s = .next s ∧ exec (.rdreg dev reg) s = .next s)

/-- A transaction depends on no register that another transaction left: with any values in the latches, the flags, `SR`,
`RES` and `SEQ` it makes the same next state, but that an unwritten `RES` keeps its value (10_state.md section 10,
93_implementation_defined.md U10). The statement does not rest on the reset values the model chose (log 11). -/
def Obligations.TransactionsReadNothingLeftByAnother : Prop :=
  ∀ (dev d : BitVec 7) (reg val r v sr rs : BitVec 8) (b a f w : Bool) (q : Seq) (o : Nat) (s : State),
    s.regd = true → s.lock = false →
    (∃ t, exec (.wrreg dev reg val) s = .next t ∧
      exec (.wrreg dev reg val)
        { s with dev := d, reg := r, dat := v, dir := b, sr := sr, res := rs, seq := q, ack := a, fail := f, wstat := w, owner := o } =
        .next { t with res := rs }) ∧
    (∃ t, exec (.rdreg dev reg) s = .next t ∧
      exec (.rdreg dev reg)
        { s with dev := d, reg := r, dat := v, dir := b, sr := sr, res := rs, seq := q, ack := a, fail := f, wstat := w, owner := o } =
        .next { t with res := if t.fail then rs else t.res })

/-! ### Registration, the slots and the lock -/

/-- R140: `INIT` registers an unregistered instance, defaulting a timeout of zero, and is refused on a registered one. -/
def Obligations.InitRegistersOnce : Prop :=
  ∀ s : State,
    encode .init = .cmd 0x30000000#32 ∧
    (s.regd = false → exec .init s = .next { s with
      lock := false
      timeout := if s.cfgTimeout = 0#32 then Config.ticksPerSecond else s.cfgTimeout
      regd := true
      slots := answered s.issuer 0x00000000#32 s.slots }) ∧
    (s.regd = true → exec .init s = .next { s with slots := answered s.issuer 0x00000300#32 s.slots })

/-- The classification of a posted command, row by row (43_bus_handle.md section 2); the acceptable command is granted the
lock when it is free. That a grant changes nothing where no command is pending, and only the model's own `issuer` where the
command goes on waiting, is the model's choice (log 15): the spec has no event for a step that is not enabled. -/
def Obligations.PostedCommandsAreClassified : Prop :=
  ∀ (s : State) (p : Nat) (sl : Slot), s.slot? p = some sl →
    (sl.pending = false → runMove (.grant p) s = .next s) ∧
    (sl.pending = true → ∀ (dev : BitVec 7) (reg val : BitVec 8),
      (decodeCommand sl.reqCw = .error .illegalCommand →
        runMove (.grant p) s = .next { s with slots := answered p 0x00000400#32 s.slots }) ∧
      (decodeCommand sl.reqCw = .ok .init → s.regd = false →
        runMove (.grant p) s = exec .init { s with issuer := p } ∧
        runMove (.grant p) s = .next { s with
          lock := false
          timeout := if s.cfgTimeout = 0#32 then Config.ticksPerSecond else s.cfgTimeout
          regd := true
          issuer := p
          slots := answered p 0x00000000#32 s.slots }) ∧
      (decodeCommand sl.reqCw = .ok .init → s.regd = true →
        runMove (.grant p) s = .next { s with issuer := p, slots := answered p 0x00000300#32 s.slots }) ∧
      (decodeCommand sl.reqCw = .ok (.wrreg dev reg val) ∨ decodeCommand sl.reqCw = .ok (.rdreg dev reg) →
        (s.regd = false →
          runMove (.grant p) s = .next { s with issuer := p, slots := answered p 0x00000200#32 s.slots }) ∧
        (s.regd = true → s.lock = true → runMove (.grant p) s = .next { s with issuer := p }) ∧
        (s.regd = true → s.lock = false →
          ∃ t, runMove (.grant p) s = .next t ∧ t.lock = true ∧ t.owner = p ∧ t.slots = s.slots)))

/-- R142: acquire latches the operands from the posted word, clears the flags and stands at the first line operation; while
the lock is held it is not enabled, and the command waits. -/
def Obligations.AcquireLatchesThePostedCommand : Prop :=
  ∀ (s : State) (p : Nat) (sl : Slot), s.slot? p = some sl → sl.pending = true → s.regd = true →
    (sl.reqCw &&& 0xFF800000#32 = 0x10000000#32 → s.lock = false → runMove (.grant p) s = .next { s with
      lock := true, owner := p
      dev := sl.reqCw.extractLsb' 16 7, reg := sl.reqCw.extractLsb' 8 8, dat := sl.reqCw.extractLsb' 0 8, dir := false
      fail := false, wstat := false
      seq := ⟨.wrreg, 0, .start, 0⟩
      issuer := p }) ∧
    (sl.reqCw &&& 0xFF8000FF#32 = 0x20000000#32 → s.lock = false → runMove (.grant p) s = .next { s with
      lock := true, owner := p
      dev := sl.reqCw.extractLsb' 16 7, reg := sl.reqCw.extractLsb' 8 8, dat := sl.reqCw.extractLsb' 0 8, dir := true
      fail := false, wstat := false
      seq := ⟨.rdreg, 0, .start, 0⟩
      issuer := p }) ∧
    (sl.reqCw &&& 0xFF800000#32 = 0x10000000#32 ∨ sl.reqCw &&& 0xFF8000FF#32 = 0x20000000#32 →
      s.lock = true → runMove (.grant p) s = .next { s with issuer := p })

/-- R143: release delivers the result word to the owner, frees the lock and idles the sequencer. -/
def Obligations.ReleaseDeliversTheResult : Prop :=
  ∀ s : State, s.lock = true →
    (s.seq = ⟨.wrreg, 7, .nothing, 0⟩ → runMove .engine s = .next { s with
      slots := answered s.owner
        ((if s.wstat then 0x00001000#32 else 0#32) ||| (if s.fail then 0x00000100#32 else 0#32)) s.slots
      lock := false
      seq := ⟨.idle, 0, .nothing, 0⟩ }) ∧
    (s.seq = ⟨.rdreg, 13, .nothing, 0⟩ → runMove .engine s = .next { s with
      slots := answered s.owner
        ((if s.wstat then 0x00001000#32 else 0#32) ||| (if s.fail then 0x00000100#32 else s.res.setWidth 32)) s.slots
      lock := false
      seq := ⟨.idle, 0, .nothing, 0⟩ })

/-- A requester posts only with both valid bits 0 and takes only a waiting result (43_bus_handle.md section 4). No other slot
and nothing else of the block changes. That a post or a take that is not enabled changes nothing is the model's choice (log
15): the spec gives enabling conditions. -/
def Obligations.RequestersPostAndTake : Prop :=
  ∀ (s : State) (p : Nat) (sl : Slot), s.slot? p = some sl →
    (∀ cw : BitVec 32, sl.reqValid = false → sl.rspValid = false → runMove (.post p cw) s = .next { s with
      slots := s.slots.set p { sl with reqValid := true, reqCw := cw }
      posted := s.posted ++ [(p, cw)] }) ∧
    (∀ cw : BitVec 32, sl.reqValid = true ∨ sl.rspValid = true → runMove (.post p cw) s = .next s) ∧
    (sl.rspValid = true → runMove (.take p) s = .next { s with
      slots := s.slots.set p { sl with rspValid := false }
      taken := s.taken ++ [(p, sl.rspRw)] }) ∧
    (sl.rspValid = false → runMove (.take p) s = .next s)

/-! ### The sequencer -/

/-- A step runs the decoded instruction, at each layer: the posted command word, the select code of the primitive the
sequencer stands at the start of, followed by the return to the transaction, and the line-operation word the sequencer points
at, followed by the bookkeeping to the next. The steps of one line operation are those of 10_state.md section 4; that one
step may run a whole posted command or a whole primitive is the model's choice of grain (log 14). -/
def Obligations.StepRunsTheDecodedInstruction : Prop :=
  (∀ (s : State) (p : Nat) (sl : Slot) (i : Instr),
    s.nextMove = .command p → s.slot? p = some sl → sl.pending = true → decode (.cmd sl.reqCw) = .ok i →
    step s = exec i { s.popMove with issuer := p }) ∧
  (∀ (s : State) (p : PrimSel) (i : Instr),
    s.nextMove = .primitive → s.primitiveAt = some p → decode (.prim p.code) = .ok i →
    step s = andThen (exec i s.popMove) State.finishStep) ∧
  (∀ (s : State) (c : BitVec 3) (i : Instr),
    s.nextMove = .engine → s.lopWord = some c → decode (.lop c) = .ok i →
    ∃ op : LineOp, op.instr = i ∧
      step s = andThen (exec i s.popMove) (fun t => (t.storeSample op s.sdaIn).advance))

/-- R122: the branch on the first address byte, in the step that performs its last operation. -/
def Obligations.FirstAddressByteSteersTheSequencer : Prop :=
  ∀ (k : CmdK) (s : State), s.lock = true → (k = .wrreg ∨ k = .rdreg) → s.seq = ⟨k, 1, .wrbyte, 36⟩ →
    (s.ack = high → runMove .engine s = .next { s.perform (.setc low) with
      fail := true
      seq := ⟨k, if k = .wrreg then 6 else 12, .stop, 0⟩ }) ∧
    (s.ack = low → runMove .engine s = .next { s.perform (.setc low) with seq := ⟨k, 2, .nothing, 0⟩ })

/-- R123: the branch on the second address byte of `RDREG`. -/
def Obligations.SecondAddressByteSteersTheSequencer : Prop :=
  ∀ s : State, s.lock = true → s.seq = ⟨.rdreg, 8, .wrbyte, 36⟩ →
    (s.ack = high → runMove .engine s = .next { s.perform (.setc low) with
      fail := true
      seq := ⟨.rdreg, 12, .stop, 0⟩ }) ∧
    (s.ack = low → runMove .engine s = .next { s.perform (.setc low) with seq := ⟨.rdreg, 9, .nothing, 0⟩ })

/-- R124: the levels sampled after the register address and after the data byte do not steer the transaction, and the second
becomes the write status. -/
def Obligations.OtherAcknowledgmentsDoNotSteer : Prop :=
  ∀ (k : CmdK) (s : State), s.lock = true → (k = .wrreg ∨ k = .rdreg) →
    (s.seq = ⟨k, 3, .wrbyte, 36⟩ →
      runMove .engine s = .next { s.perform (.setc low) with seq := ⟨k, 4, .nothing, 0⟩ }) ∧
    (s.seq = ⟨.wrreg, 5, .wrbyte, 36⟩ →
      runMove .engine s = .next { s.perform (.setc low) with wstat := s.ack, seq := ⟨.wrreg, 6, .stop, 0⟩ }) ∧
    (s.seq = ⟨k, 3, .wrbyte, 35⟩ ∨ s.seq = ⟨.wrreg, 5, .wrbyte, 35⟩ →
      runMove .engine s = .next { s.perform .getd with
        ack := s.sdaIn
        seq := { s.seq with pstep := 36 } })

/-- A primitive run whole is its line operations one after another, with the return to the transaction in the last of
them (41_bit_signaling.md section 3). -/
def Obligations.PrimitiveIsItsLineOperations : Prop :=
  ∀ (s : State) (p : PrimSel), s.primitiveAt = some p → s.primitiveStep = engineSteps (primLength p) s

/-- The small-step engine runs the pseudocode: from the acquire of a transaction, one engine step for each operation of its
trace and one for the release make exactly the state that the instruction's meaning gives, in every environment (10_state.md
section 4). -/
def Obligations.SmallStepsRunThePseudocode : Prop :=
  ∀ (dev : BitVec 7) (reg val : BitVec 8) (s : State), s.regd = true → s.lock = false →
    (∃ t, exec (.wrreg dev reg val) s = .next t ∧
      (s.acquire s.issuer .wrreg dev reg val).reachesBy (t.trace.length - s.trace.length + 1) t) ∧
    (∃ t, exec (.rdreg dev reg) s = .next t ∧
      (s.acquire s.issuer .rdreg dev reg 0#8).reachesBy (t.trace.length - s.trace.length + 1) t)

/-- The holder of the lock always reaches its release: from every position of the step tables, with any flags and in every
environment, at most 181 engine steps free the lock (10_state.md section 4, 42_transactions.md section 2). -/
def Obligations.HolderReachesRelease : Prop :=
  ∀ s : State, s.lock = true → s.seqLegal = true →
    ∃ (n : Nat) (t : State), n ≤ 181 ∧ engineSteps n s = .next t ∧ t.lock = false ∧ t.seq = Seq.idle

/-! ### Invariants -/

/-- What reset leaves in every element the spec gives a value (70_reset_and_hazards.md section 1, 10_state.md section 10).
The latches are at the parameters `INIT_SCL` and `INIT_SDA`; that these are 1 and 1, the spec's defaults, is the model's
choice (log 2). There is one slot for each of `NREQ` requesters (R8, R36). -/
def Obligations.ResetEstablishesTheLaunchState : Prop :=
  State.reset.sclOut = Config.initScl ∧ State.reset.sdaOut = Config.initSda ∧
  State.reset.sclOut = high ∧ State.reset.sdaOut = high ∧ State.reset.seq = ⟨.idle, 0, .nothing, 0⟩ ∧
  State.reset.lock = false ∧ State.reset.regd = false ∧ State.reset.timeout = 0#32 ∧
  State.reset.slots.length = Config.nreq ∧
  (∀ sl ∈ State.reset.slots, sl.reqValid = false ∧ sl.rspValid = false) ∧
  State.reset.trace = []

/-- The reset state meets every invariant below. -/
def Obligations.ResetMeetsEveryInvariant : Prop :=
  State.reset.EngineInv ∧ State.reset.OwnerInv ∧ State.reset.SlotsInv ∧ State.reset.ResultsInv ∧
  State.reset.MemoryInv ∧ State.reset.TimeoutInv ∧ State.reset.AccountInv

/-- Every step of every agent keeps the sequencer in its step tables and the latches at the levels of its position, and leaves
the lines idle whenever the lock is free (10_state.md sections 4 and 9). -/
def Obligations.EveryStepKeepsTheLinesLegal : Prop :=
  ∀ s t : State, s.EngineInv → step s = .next t → t.EngineInv

/-- A state that meets the invariant never stops: every step has a next state (10_state.md section 4, 40_line_ops.md section
2). -/
def Obligations.LegalStatesNeverStop : Prop :=
  ∀ s : State, s.EngineInv → s.safeStep

/-- Every step keeps the posted word of the owner, its operands in the latches, and the registration of a locked instance
(10_state.md sections 3 and 6). -/
def Obligations.EveryStepKeepsTheOwnersCommand : Prop :=
  ∀ s t : State, s.OwnerInv → step s = .next t → t.OwnerInv

/-- Every step keeps at most one of the two valid bits of each slot (10_state.md section 6). -/
def Obligations.EveryStepKeepsTheSlotsExclusive : Prop :=
  ∀ s t : State, s.SlotsInv → step s = .next t → t.SlotsInv

/-- Every result word delivered in a run is one of those the spec allows (30_encoding.md section 3, 95_test_vectors.md E16). -/
def Obligations.EveryResultWordIsLegal : Prop :=
  ∀ s t : State, s.ResultsInv → step s = .next t → t.ResultsInv

/-- Every step keeps the canonical form of the responder's registers (the model's choice of form, log 12). -/
def Obligations.EveryStepKeepsTheMemoryCanonical : Prop :=
  ∀ s t : State, s.MemoryInv → step s = .next t → t.MemoryInv

/-- A timeout once registered is not zero, in every step (10_state.md section 6). -/
def Obligations.RegisteredTimeoutIsNotZero : Prop :=
  ∀ s t : State, s.TimeoutInv → step s = .next t → t.TimeoutInv

/-- Every step keeps the account of each requester: as many results taken as commands posted, but for the one outstanding in
its slot; so a requester has at most one command outstanding and every command is answered once (10_state.md section 6,
43_bus_handle.md section 4). -/
def Obligations.EveryStepKeepsTheAccounts : Prop :=
  ∀ s t : State, s.AccountInv → step s = .next t → t.AccountInv

/-- At every sample both lines are commanded high, and `STOP`, `NOACK`, `WRBYTE` and `RDBYTE` are entered with the clock low, as
is every `SETD` inside `WRBYTE`, `RDBYTE` and `NOACK` (10_state.md section 9, 40_line_ops.md section 2). -/
def Obligations.SamplesAndEntriesFindTheRightLevels : Prop :=
  ∀ s : State, s.EngineInv → s.lock = true →
    (engineNext s.seq s.sr = some (.perform .getd) → s.sclOut = high ∧ s.sdaOut = high) ∧
    (s.seq.pstep = 0 → s.seq.prim = .stop ∨ s.seq.prim = .noack ∨ s.seq.prim = .wrbyte ∨ s.seq.prim = .rdbyte →
      s.sclOut = low) ∧
    (∀ l : Level, engineNext s.seq s.sr = some (.perform (.setd l)) →
      s.seq.prim = .noack ∨ s.seq.prim = .wrbyte ∨ s.seq.prim = .rdbyte → s.sclOut = low)

/-! ### Whole-machine rules -/

/-- R147: the lifecycle of an instance moves only by `INIT`, acquire and release; in particular no step unregisters it. -/
def Obligations.LifecycleMovesOnlyForward : Prop :=
  ∀ s t : State, s.EngineInv → step s = .next t →
    t.lifecycle = s.lifecycle ∨
    (s.lifecycle = .unregistered ∧ t.lifecycle = .registeredIdle ∧
      ∃ (p : Nat) (sl : Slot), (s.nextMove = .grant p ∨ s.nextMove = .command p) ∧ s.slot? p = some sl ∧
        sl.pending = true ∧ decodeCommand sl.reqCw = .ok .init) ∨
    (s.lifecycle = .registeredIdle ∧ t.lifecycle = .registeredBusy ∧
      ∃ p : Nat, s.nextMove = .grant p ∧ t.owner = p) ∨
    (s.lifecycle = .registeredBusy ∧ t.lifecycle = .registeredIdle ∧
      (s.nextMove = .engine ∨ s.nextMove = .primitive) ∧ engineNext s.seq s.sr = some .release)

/-- Only the engine, and only in a transaction that holds the lock, performs line operations (40_line_ops.md section 2): a
step that adds to the trace or changes a latch is an engine step of the holder, or the whole command of a requester that takes
the free lock for it. The second case exists by the model's coarse move `command` (log 14). -/
def Obligations.OnlyTheLockHolderDrivesTheLines : Prop :=
  ∀ s t : State, step s = .next t → (t.trace ≠ s.trace ∨ t.sclOut ≠ s.sclOut ∨ t.sdaOut ≠ s.sdaOut) →
    (s.lock = true ∧ (s.nextMove = .engine ∨ s.nextMove = .primitive)) ∨
    (∃ p : Nat, s.nextMove = .command p ∧ s.regd = true ∧ s.lock = false ∧ t.owner = p)

/-- The end of a run (43_bus_handle.md section 6): in a state that the invariants allow, the run of a program is over exactly
when every requester has posted all its commands and taken all its results and the lock is free; then no slot is in use, the
sequencer is idle, and the lines are idle if anything was traced. A state with a posted command, a waiting result or the lock
held is not final. -/
def Obligations.ARunIsOverWhenEveryProgramIsDone : Prop :=
  ∀ (progs : Programs) (s : State), s.EngineInv → s.AccountInv →
    (s.runOver progs = true ↔
      (∀ p < max s.slots.length progs.length,
        s.postedBy p = progs.getD p [] ∧ (s.takenBy p).length = (progs.getD p []).length) ∧ s.lock = false) ∧
    (s.runOver progs = true →
      (∀ sl ∈ s.slots, sl.reqValid = false ∧ sl.rspValid = false) ∧ s.seq = Seq.idle ∧
      (s.trace ≠ [] → s.linesIdle = true))

/-- A transaction in flight is indivisible: a step of any agent but the engine changes nothing of the block but slots of other
requesters (20_memory.md sections 4 and 7, 95_test_vectors.md V8). -/
def Obligations.TransactionsNeverInterleave : Prop :=
  ∀ s t : State, s.OwnerInv → s.lock = true → s.nextMove ≠ .engine → s.nextMove ≠ .primitive → step s = .next t →
    t = { s with
      slots := t.slots, cfgTimeout := t.cfgTimeout, posted := t.posted, taken := t.taken, issuer := t.issuer
      moves := t.moves, tick := t.tick } ∧
    t.slot? s.owner = s.slot? s.owner

/-- No behaviour depends on the timeout: two states that differ in it alone make steps that differ in it alone (10_state.md
section 6). -/
def Obligations.TimeoutIsNeverRead : Prop :=
  ∀ (s : State) (x : BitVec 32),
    andThen (step { s with timeout := x }) (fun t => { t with timeout := 0#32 }) =
      andThen (step s) (fun t => { t with timeout := 0#32 })

/-- The instances of a system share nothing: a step of one leaves every other as it is, is a step of that one alone, and keeps
the index by which its inputs are its own, log 23 (10_state.md section 1, 60_exceptions.md section 9). -/
def Obligations.InstancesAreIndependent : Prop :=
  ∀ (sys sys' : System) (k : Nat), System.stepAt k sys = .next sys' →
    sys'.length = sys.length ∧ (∀ j : Nat, j ≠ k → sys'[j]? = sys[j]?) ∧
    (∀ s : State, sys[k]? = some s → ∃ t, step s = .next t ∧ sys'[k]? = some t ∧ t.bus = s.bus)

/-! ### The bus register space, with the reference responder -/

/-- `WRREG` to the reference responder stores the byte in the addressed register and changes no other (20_memory.md section
12). -/
def Obligations.WrregStoresInTheResponder : Prop :=
  ∀ (reg val : BitVec 8) (s : State) (r : Responder),
    s.regd = true → s.lock = false → s.linesIdle = true → s.env = .reference r → s.MemoryInv →
    ∃ (t : State) (r' : Responder), exec (.wrreg r.ra reg val) s = .next t ∧ t.env = .reference r' ∧
      t.slots = answered s.issuer 0x00000000#32 s.slots ∧
      Memory.read r'.rm reg.toNat = val ∧ (∀ a : Nat, a ≠ reg.toNat → Memory.read r'.rm a = Memory.read r.rm a) ∧
      r'.ra = r.ra ∧ r'.rp = reg ∧ r'.phase = .off

/-- `RDREG` of the reference responder returns the byte of the addressed register, changes none, and leaves the register selected
(20_memory.md section 12). -/
def Obligations.RdregLoadsFromTheResponder : Prop :=
  ∀ (reg : BitVec 8) (s : State) (r : Responder),
    s.regd = true → s.lock = false → s.linesIdle = true → s.env = .reference r →
    ∃ (t : State) (r' : Responder), exec (.rdreg r.ra reg) s = .next t ∧ t.env = .reference r' ∧
      t.slots = answered s.issuer ((Memory.read r.rm reg.toNat).setWidth 32) s.slots ∧
      r'.rm = r.rm ∧ r'.ra = r.ra ∧ r'.rp = reg ∧ r'.phase = .off

/-- The round-trip law: what a `WRREG` wrote to a register of the reference responder is what a following `RDREG` of it returns
(20_memory.md sections 1 and 12, 95_test_vectors.md V5). -/
def Obligations.ReadReturnsTheLastWrite : Prop :=
  ∀ (reg val : BitVec 8) (s : State) (r : Responder) (sl : Slot),
    s.regd = true → s.lock = false → s.linesIdle = true → s.env = .reference r → s.MemoryInv →
    s.slot? s.issuer = some sl →
    ∃ t u : State, exec (.wrreg r.ra reg val) s = .next t ∧ exec (.rdreg r.ra reg) (t.take s.issuer) = .next u ∧
      (∃ sl' : Slot, u.slot? s.issuer = some sl' ∧ sl'.rspValid = true ∧ sl'.rspRw = val.setWidth 32) ∧
      Memory.read u.memory reg.toNat = val ∧
      (∀ a : Nat, a ≠ reg.toNat → Memory.read u.memory a = Memory.read s.memory a)

/-- With no responder, or a responder at another address, every transaction ends in `DEVICE_NOT_FOUND` with the lines idle, and no
register is changed (20_memory.md section 12, 95_test_vectors.md V3 and X3). -/
def Obligations.AbsentDeviceIsNotFound : Prop :=
  ∀ (dev : BitVec 7) (reg val : BitVec 8) (s : State),
    s.regd = true → s.lock = false → s.linesIdle = true →
    (s.env = .absent ∨ ∃ r : Responder, s.env = .reference r ∧ r.ra ≠ dev) →
    (∃ t : State, exec (.wrreg dev reg val) s = .next t ∧ t.slots = answered s.issuer 0x00000100#32 s.slots ∧
      t.linesIdle = true ∧ t.trace = s.trace ++ absentTrace dev ∧ t.memory = s.memory) ∧
    (∃ t : State, exec (.rdreg dev reg) s = .next t ∧ t.slots = answered s.issuer 0x00000100#32 s.slots ∧
      t.linesIdle = true ∧ t.trace = s.trace ++ absentTrace dev ∧ t.memory = s.memory)
end

