-- ==== Sys2Proof/Laws/Decode.lean ====
section
/-!
SUPPORT. Small lemmas of the decoder that the sequencer's proofs cite.
-/

namespace Sys2Proof

/-- The word of a line operation decodes to its instruction. -/
@[simp] theorem decode_lop_code (op : LineOp) : decode (.lop op.code) = .ok op.instr := by
  cases op with
  | setc l => cases l <;> rfl
  | setd l => cases l <;> rfl
  | getd => rfl
  | dly => rfl

/-- The code of a primitive selector decodes to the instruction it selects, and that of `NONE` to nothing. -/
theorem decode_prim_code (p : PrimSel) :
    decode (.prim p.code) = match p.instr with
      | some i => .ok i
      | none => .error .noPrimitive := by
  cases p <;> rfl

/-- A host command word never decodes to an instruction of a lower layer. -/
theorem decodeCommand_postable {w : BitVec 32} {i : Instr} (h : decodeCommand w = .ok i) : i.postable = true := by
  unfold decodeCommand at h
  split at h
  · cases h; rfl
  · split at h
    · cases h; rfl
    · split at h
      · cases h; rfl
      · cases h

end Sys2Proof
end

