-- ==== Sys2Proof/Laws/Memory.lean ====
section
/-!
SUPPORT. The register file of a responder: what is read after a write, and that every operation keeps the canonical
form.
-/

namespace Sys2Proof.Machine

theorem Memory.wf_of_risesAbove {lo : Nat} {m : Memory} (h : Memory.risesAbove lo m = true) : Memory.wf m = true := by
  cases m with
  | nil => rfl
  | cons c rest => simp_all [Memory.risesAbove, Memory.wf]

theorem Memory.risesAbove_of_lt {lo lo' : Nat} {m : Memory} (hlo : lo' ≤ lo) (h : Memory.risesAbove lo m = true) :
    Memory.risesAbove lo' m = true := by
  cases m with
  | nil => rfl
  | cons c rest =>
    simp only [Memory.risesAbove, Bool.and_eq_true, decide_eq_true_eq] at h ⊢
    exact ⟨⟨by omega, h.1.2⟩, h.2⟩

/-- No address at or below the bound is listed, so it reads as unlisted. -/
theorem Memory.read_of_risesAbove {lo a : Nat} {m : Memory} (h : Memory.risesAbove lo m = true) (ha : a ≤ lo) :
    Memory.read m a = Memory.unlisted := by
  induction m generalizing lo with
  | nil => rfl
  | cons c rest ih =>
    simp only [Memory.risesAbove, Bool.and_eq_true, decide_eq_true_eq] at h
    have hne : c.1 ≠ a := by omega
    simp only [Memory.read, if_neg hne]
    exact ih h.2 (by omega)

theorem Memory.write_risesAbove {lo a : Nat} {v : BitVec 8} {m : Memory} (h : Memory.risesAbove lo m = true)
    (ha : lo < a) : Memory.risesAbove lo (Memory.write m a v) = true := by
  induction m generalizing lo with
  | nil =>
    simp only [Memory.write]
    split <;> simp_all [Memory.risesAbove]
  | cons c rest ih =>
    simp only [Memory.risesAbove, Bool.and_eq_true, decide_eq_true_eq] at h
    obtain ⟨⟨hk, hv⟩, hr⟩ := h
    simp only [Memory.write]
    split
    · split <;> simp_all [Memory.risesAbove]
    · split
      · rename_i heq
        split
        · exact Memory.risesAbove_of_lt (Nat.le_of_lt hk) hr
        · subst heq; simp_all [Memory.risesAbove]
      · have hlt : c.1 < a := by omega
        simp [Memory.risesAbove, hk, hv, ih hr hlt]

/-- A write keeps the canonical form. -/
theorem Memory.write_wf {m : Memory} (a : Nat) (v : BitVec 8) (h : Memory.wf m = true) :
    Memory.wf (Memory.write m a v) = true := by
  cases m with
  | nil =>
    simp only [Memory.write]
    split <;> simp_all [Memory.wf, Memory.risesAbove]
  | cons c rest =>
    simp only [Memory.wf, Bool.and_eq_true, decide_eq_true_eq] at h
    obtain ⟨hv, hr⟩ := h
    simp only [Memory.write]
    split
    · split <;> simp_all [Memory.wf, Memory.risesAbove]
    · split
      · rename_i heq
        split
        · exact Memory.wf_of_risesAbove hr
        · subst heq; simp_all [Memory.wf]
      · simp [Memory.wf, hv, Memory.write_risesAbove hr (by omega : c.1 < a)]

theorem Memory.read_write_same_above {lo a : Nat} {m : Memory} (v : BitVec 8) (h : Memory.risesAbove lo m = true) :
    Memory.read (Memory.write m a v) a = v := by
  induction m generalizing lo with
  | nil =>
    simp only [Memory.write]
    split <;> simp_all [Memory.read]
  | cons c rest ih =>
    simp only [Memory.risesAbove, Bool.and_eq_true, decide_eq_true_eq] at h
    obtain ⟨⟨hk, hv⟩, hr⟩ := h
    simp only [Memory.write]
    split
    · rename_i hlt
      split
      · rename_i hz
        have hne : c.1 ≠ a := by omega
        simp only [Memory.read, if_neg hne, hz]
        exact Memory.read_of_risesAbove hr (by omega)
      · simp [Memory.read]
    · split
      · rename_i heq
        split
        · rename_i hz
          rw [hz]
          exact Memory.read_of_risesAbove hr (by omega)
        · simp [Memory.read]
      · rename_i hne
        have hne' : c.1 ≠ a := fun e => hne e.symm
        simp only [Memory.read, if_neg hne']
        exact ih hr

/-- A read of the address just written gives what was written. -/
theorem Memory.read_write_same {m : Memory} (a : Nat) (v : BitVec 8) (h : Memory.wf m = true) :
    Memory.read (Memory.write m a v) a = v := by
  cases m with
  | nil =>
    simp only [Memory.write]
    split <;> simp_all [Memory.read]
  | cons c rest =>
    simp only [Memory.wf, Bool.and_eq_true, decide_eq_true_eq] at h
    obtain ⟨hv, hr⟩ := h
    simp only [Memory.write]
    split
    · split
      · rename_i hlt hz
        have hne : c.1 ≠ a := by omega
        simp only [Memory.read, if_neg hne, hz]
        exact Memory.read_of_risesAbove hr (by omega)
      · simp [Memory.read]
    · split
      · rename_i heq
        split
        · rename_i hz
          rw [hz]
          exact Memory.read_of_risesAbove hr (by omega)
        · simp [Memory.read]
      · rename_i hne
        have hne' : c.1 ≠ a := fun e => hne e.symm
        simp only [Memory.read, if_neg hne']
        exact Memory.read_write_same_above v hr

/-- A write leaves every other address alone. -/
theorem Memory.read_write_other {m : Memory} {a b : Nat} (v : BitVec 8) (hab : b ≠ a) :
    Memory.read (Memory.write m a v) b = Memory.read m b := by
  induction m with
  | nil =>
    simp only [Memory.write]
    split
    · rfl
    · simp [Memory.read, Ne.symm hab]
  | cons c rest ih =>
    simp only [Memory.write]
    split
    · split
      · rfl
      · simp [Memory.read, Ne.symm hab]
    · split
      · rename_i heq
        split
        · simp [Memory.read, ← heq, Ne.symm hab]
        · simp [Memory.read, ← heq, Ne.symm hab]
      · simp only [Memory.read, ih]

/-- The memory of the reset state has the canonical form. -/
theorem State.reset_memory_wf : Memory.wf State.reset.memory = true := rfl

/-- A rising clock keeps the canonical form of the responder's registers. -/
theorem Responder.rise_wf {r : Responder} (sda : Level) (h : Memory.wf r.rm = true) :
    Memory.wf (r.rise sda).rm = true := by
  unfold Responder.rise
  cases r.phase <;> simp only <;> (repeat' split) <;> first | exact h | exact Memory.write_wf _ _ h

/-- A falling clock keeps the responder's registers. -/
theorem Responder.fall_rm (r : Responder) : r.fall.rm = r.rm := by
  unfold Responder.fall
  cases r.phase <;> (repeat' split) <;> rfl

/-- Every line operation keeps the canonical form of the responder's registers. -/
theorem Responder.observe_wf {r : Responder} (op : LineOp) (scl sda : Level) (h : Memory.wf r.rm = true) :
    Memory.wf (r.observe op scl sda).rm = true := by
  unfold Responder.observe
  (repeat' split) <;> first | exact h | exact Responder.rise_wf _ h | (rw [Responder.fall_rm]; exact h)

/-- Performing a line operation keeps the canonical form. -/
theorem State.perform_memory_wf {s : State} (op : LineOp) (h : Memory.wf s.memory = true) :
    Memory.wf (s.perform op).memory = true := by
  obtain ⟨e, he⟩ : ∃ e, s.env = e := ⟨_, rfl⟩
  simp only [State.memory, State.perform, Environment.observe, he] at h ⊢
  cases e with
  | reference r => exact Responder.observe_wf _ _ _ h
  | levels ls => by_cases hop : op = .getd <;> simp [hop, Memory.wf]
  | absent => rfl

end Sys2Proof.Machine
end

