-- ==== Sys2Proof/Laws/State.lean ====
section
/-!
SUPPORT. What each update of the state does to each field, so that no later proof unfolds a record update.
-/

namespace Sys2Proof.Machine

variable (s : State)

/-! ### `perform` -/

@[simp] theorem State.perform_dev (op : LineOp) : (s.perform op).dev = s.dev := rfl
@[simp] theorem State.perform_reg (op : LineOp) : (s.perform op).reg = s.reg := rfl
@[simp] theorem State.perform_dat (op : LineOp) : (s.perform op).dat = s.dat := rfl
@[simp] theorem State.perform_dir (op : LineOp) : (s.perform op).dir = s.dir := rfl
@[simp] theorem State.perform_sr (op : LineOp) : (s.perform op).sr = s.sr := rfl
@[simp] theorem State.perform_res (op : LineOp) : (s.perform op).res = s.res := rfl
@[simp] theorem State.perform_seq (op : LineOp) : (s.perform op).seq = s.seq := rfl
@[simp] theorem State.perform_ack (op : LineOp) : (s.perform op).ack = s.ack := rfl
@[simp] theorem State.perform_fail (op : LineOp) : (s.perform op).fail = s.fail := rfl
@[simp] theorem State.perform_wstat (op : LineOp) : (s.perform op).wstat = s.wstat := rfl
@[simp] theorem State.perform_timeout (op : LineOp) : (s.perform op).timeout = s.timeout := rfl
@[simp] theorem State.perform_regd (op : LineOp) : (s.perform op).regd = s.regd := rfl
@[simp] theorem State.perform_lock (op : LineOp) : (s.perform op).lock = s.lock := rfl
@[simp] theorem State.perform_owner (op : LineOp) : (s.perform op).owner = s.owner := rfl
@[simp] theorem State.perform_slots (op : LineOp) : (s.perform op).slots = s.slots := rfl
@[simp] theorem State.perform_cfgTimeout (op : LineOp) : (s.perform op).cfgTimeout = s.cfgTimeout := rfl
@[simp] theorem State.perform_env (op : LineOp) : (s.perform op).env = s.env.observe op s.sclOut s.sdaOut := rfl
@[simp] theorem State.perform_trace (op : LineOp) : (s.perform op).trace = s.trace ++ [tokenOf op s.sdaIn] := rfl
@[simp] theorem State.perform_posted (op : LineOp) : (s.perform op).posted = s.posted := rfl
@[simp] theorem State.perform_taken (op : LineOp) : (s.perform op).taken = s.taken := rfl
@[simp] theorem State.perform_issuer (op : LineOp) : (s.perform op).issuer = s.issuer := rfl
@[simp] theorem State.perform_moves (op : LineOp) : (s.perform op).moves = s.moves := rfl
@[simp] theorem State.perform_tick (op : LineOp) : (s.perform op).tick = s.tick := rfl
@[simp] theorem State.perform_bus (op : LineOp) : (s.perform op).bus = s.bus := rfl

/-! ### `setAck` -/

@[simp] theorem State.setAck_sclOut (r : Level) : (s.setAck r).sclOut = s.sclOut := rfl
@[simp] theorem State.setAck_sdaOut (r : Level) : (s.setAck r).sdaOut = s.sdaOut := rfl
@[simp] theorem State.setAck_dev (r : Level) : (s.setAck r).dev = s.dev := rfl
@[simp] theorem State.setAck_reg (r : Level) : (s.setAck r).reg = s.reg := rfl
@[simp] theorem State.setAck_dat (r : Level) : (s.setAck r).dat = s.dat := rfl
@[simp] theorem State.setAck_dir (r : Level) : (s.setAck r).dir = s.dir := rfl
@[simp] theorem State.setAck_sr (r : Level) : (s.setAck r).sr = s.sr := rfl
@[simp] theorem State.setAck_res (r : Level) : (s.setAck r).res = s.res := rfl
@[simp] theorem State.setAck_seq (r : Level) : (s.setAck r).seq = s.seq := rfl
@[simp] theorem State.setAck_ack (r : Level) : (s.setAck r).ack = r := rfl
@[simp] theorem State.setAck_fail (r : Level) : (s.setAck r).fail = s.fail := rfl
@[simp] theorem State.setAck_wstat (r : Level) : (s.setAck r).wstat = s.wstat := rfl
@[simp] theorem State.setAck_timeout (r : Level) : (s.setAck r).timeout = s.timeout := rfl
@[simp] theorem State.setAck_regd (r : Level) : (s.setAck r).regd = s.regd := rfl
@[simp] theorem State.setAck_lock (r : Level) : (s.setAck r).lock = s.lock := rfl
@[simp] theorem State.setAck_owner (r : Level) : (s.setAck r).owner = s.owner := rfl
@[simp] theorem State.setAck_slots (r : Level) : (s.setAck r).slots = s.slots := rfl
@[simp] theorem State.setAck_cfgTimeout (r : Level) : (s.setAck r).cfgTimeout = s.cfgTimeout := rfl
@[simp] theorem State.setAck_env (r : Level) : (s.setAck r).env = s.env := rfl
@[simp] theorem State.setAck_trace (r : Level) : (s.setAck r).trace = s.trace := rfl
@[simp] theorem State.setAck_posted (r : Level) : (s.setAck r).posted = s.posted := rfl
@[simp] theorem State.setAck_taken (r : Level) : (s.setAck r).taken = s.taken := rfl
@[simp] theorem State.setAck_issuer (r : Level) : (s.setAck r).issuer = s.issuer := rfl
@[simp] theorem State.setAck_moves (r : Level) : (s.setAck r).moves = s.moves := rfl
@[simp] theorem State.setAck_tick (r : Level) : (s.setAck r).tick = s.tick := rfl
@[simp] theorem State.setAck_bus (r : Level) : (s.setAck r).bus = s.bus := rfl

/-! ### `recordDeviceNotFound` -/

@[simp] theorem State.recordDeviceNotFound_sclOut : (s.recordDeviceNotFound).sclOut = s.sclOut := rfl
@[simp] theorem State.recordDeviceNotFound_sdaOut : (s.recordDeviceNotFound).sdaOut = s.sdaOut := rfl
@[simp] theorem State.recordDeviceNotFound_dev : (s.recordDeviceNotFound).dev = s.dev := rfl
@[simp] theorem State.recordDeviceNotFound_reg : (s.recordDeviceNotFound).reg = s.reg := rfl
@[simp] theorem State.recordDeviceNotFound_dat : (s.recordDeviceNotFound).dat = s.dat := rfl
@[simp] theorem State.recordDeviceNotFound_dir : (s.recordDeviceNotFound).dir = s.dir := rfl
@[simp] theorem State.recordDeviceNotFound_sr : (s.recordDeviceNotFound).sr = s.sr := rfl
@[simp] theorem State.recordDeviceNotFound_res : (s.recordDeviceNotFound).res = s.res := rfl
@[simp] theorem State.recordDeviceNotFound_seq : (s.recordDeviceNotFound).seq = s.seq := rfl
@[simp] theorem State.recordDeviceNotFound_ack : (s.recordDeviceNotFound).ack = s.ack := rfl
@[simp] theorem State.recordDeviceNotFound_fail : (s.recordDeviceNotFound).fail = true := rfl
@[simp] theorem State.recordDeviceNotFound_wstat : (s.recordDeviceNotFound).wstat = s.wstat := rfl
@[simp] theorem State.recordDeviceNotFound_timeout : (s.recordDeviceNotFound).timeout = s.timeout := rfl
@[simp] theorem State.recordDeviceNotFound_regd : (s.recordDeviceNotFound).regd = s.regd := rfl
@[simp] theorem State.recordDeviceNotFound_lock : (s.recordDeviceNotFound).lock = s.lock := rfl
@[simp] theorem State.recordDeviceNotFound_owner : (s.recordDeviceNotFound).owner = s.owner := rfl
@[simp] theorem State.recordDeviceNotFound_slots : (s.recordDeviceNotFound).slots = s.slots := rfl
@[simp] theorem State.recordDeviceNotFound_cfgTimeout : (s.recordDeviceNotFound).cfgTimeout = s.cfgTimeout := rfl
@[simp] theorem State.recordDeviceNotFound_env : (s.recordDeviceNotFound).env = s.env := rfl
@[simp] theorem State.recordDeviceNotFound_trace : (s.recordDeviceNotFound).trace = s.trace := rfl
@[simp] theorem State.recordDeviceNotFound_posted : (s.recordDeviceNotFound).posted = s.posted := rfl
@[simp] theorem State.recordDeviceNotFound_taken : (s.recordDeviceNotFound).taken = s.taken := rfl
@[simp] theorem State.recordDeviceNotFound_issuer : (s.recordDeviceNotFound).issuer = s.issuer := rfl
@[simp] theorem State.recordDeviceNotFound_moves : (s.recordDeviceNotFound).moves = s.moves := rfl
@[simp] theorem State.recordDeviceNotFound_tick : (s.recordDeviceNotFound).tick = s.tick := rfl
@[simp] theorem State.recordDeviceNotFound_bus : (s.recordDeviceNotFound).bus = s.bus := rfl

/-! ### `loadSr` -/

@[simp] theorem State.loadSr_sclOut (v : BitVec 8) : (s.loadSr v).sclOut = s.sclOut := rfl
@[simp] theorem State.loadSr_sdaOut (v : BitVec 8) : (s.loadSr v).sdaOut = s.sdaOut := rfl
@[simp] theorem State.loadSr_dev (v : BitVec 8) : (s.loadSr v).dev = s.dev := rfl
@[simp] theorem State.loadSr_reg (v : BitVec 8) : (s.loadSr v).reg = s.reg := rfl
@[simp] theorem State.loadSr_dat (v : BitVec 8) : (s.loadSr v).dat = s.dat := rfl
@[simp] theorem State.loadSr_dir (v : BitVec 8) : (s.loadSr v).dir = s.dir := rfl
@[simp] theorem State.loadSr_sr (v : BitVec 8) : (s.loadSr v).sr = v := rfl
@[simp] theorem State.loadSr_res (v : BitVec 8) : (s.loadSr v).res = s.res := rfl
@[simp] theorem State.loadSr_seq (v : BitVec 8) : (s.loadSr v).seq = s.seq := rfl
@[simp] theorem State.loadSr_ack (v : BitVec 8) : (s.loadSr v).ack = s.ack := rfl
@[simp] theorem State.loadSr_fail (v : BitVec 8) : (s.loadSr v).fail = s.fail := rfl
@[simp] theorem State.loadSr_wstat (v : BitVec 8) : (s.loadSr v).wstat = s.wstat := rfl
@[simp] theorem State.loadSr_timeout (v : BitVec 8) : (s.loadSr v).timeout = s.timeout := rfl
@[simp] theorem State.loadSr_regd (v : BitVec 8) : (s.loadSr v).regd = s.regd := rfl
@[simp] theorem State.loadSr_lock (v : BitVec 8) : (s.loadSr v).lock = s.lock := rfl
@[simp] theorem State.loadSr_owner (v : BitVec 8) : (s.loadSr v).owner = s.owner := rfl
@[simp] theorem State.loadSr_slots (v : BitVec 8) : (s.loadSr v).slots = s.slots := rfl
@[simp] theorem State.loadSr_cfgTimeout (v : BitVec 8) : (s.loadSr v).cfgTimeout = s.cfgTimeout := rfl
@[simp] theorem State.loadSr_env (v : BitVec 8) : (s.loadSr v).env = s.env := rfl
@[simp] theorem State.loadSr_trace (v : BitVec 8) : (s.loadSr v).trace = s.trace := rfl
@[simp] theorem State.loadSr_posted (v : BitVec 8) : (s.loadSr v).posted = s.posted := rfl
@[simp] theorem State.loadSr_taken (v : BitVec 8) : (s.loadSr v).taken = s.taken := rfl
@[simp] theorem State.loadSr_issuer (v : BitVec 8) : (s.loadSr v).issuer = s.issuer := rfl
@[simp] theorem State.loadSr_moves (v : BitVec 8) : (s.loadSr v).moves = s.moves := rfl
@[simp] theorem State.loadSr_tick (v : BitVec 8) : (s.loadSr v).tick = s.tick := rfl
@[simp] theorem State.loadSr_bus (v : BitVec 8) : (s.loadSr v).bus = s.bus := rfl

/-! ### `captureWriteStatus` -/

@[simp] theorem State.captureWriteStatus_sclOut : (s.captureWriteStatus).sclOut = s.sclOut := rfl
@[simp] theorem State.captureWriteStatus_sdaOut : (s.captureWriteStatus).sdaOut = s.sdaOut := rfl
@[simp] theorem State.captureWriteStatus_dev : (s.captureWriteStatus).dev = s.dev := rfl
@[simp] theorem State.captureWriteStatus_reg : (s.captureWriteStatus).reg = s.reg := rfl
@[simp] theorem State.captureWriteStatus_dat : (s.captureWriteStatus).dat = s.dat := rfl
@[simp] theorem State.captureWriteStatus_dir : (s.captureWriteStatus).dir = s.dir := rfl
@[simp] theorem State.captureWriteStatus_sr : (s.captureWriteStatus).sr = s.sr := rfl
@[simp] theorem State.captureWriteStatus_res : (s.captureWriteStatus).res = s.res := rfl
@[simp] theorem State.captureWriteStatus_seq : (s.captureWriteStatus).seq = s.seq := rfl
@[simp] theorem State.captureWriteStatus_ack : (s.captureWriteStatus).ack = s.ack := rfl
@[simp] theorem State.captureWriteStatus_fail : (s.captureWriteStatus).fail = s.fail := rfl
@[simp] theorem State.captureWriteStatus_wstat : (s.captureWriteStatus).wstat = s.ack := rfl
@[simp] theorem State.captureWriteStatus_timeout : (s.captureWriteStatus).timeout = s.timeout := rfl
@[simp] theorem State.captureWriteStatus_regd : (s.captureWriteStatus).regd = s.regd := rfl
@[simp] theorem State.captureWriteStatus_lock : (s.captureWriteStatus).lock = s.lock := rfl
@[simp] theorem State.captureWriteStatus_owner : (s.captureWriteStatus).owner = s.owner := rfl
@[simp] theorem State.captureWriteStatus_slots : (s.captureWriteStatus).slots = s.slots := rfl
@[simp] theorem State.captureWriteStatus_cfgTimeout : (s.captureWriteStatus).cfgTimeout = s.cfgTimeout := rfl
@[simp] theorem State.captureWriteStatus_env : (s.captureWriteStatus).env = s.env := rfl
@[simp] theorem State.captureWriteStatus_trace : (s.captureWriteStatus).trace = s.trace := rfl
@[simp] theorem State.captureWriteStatus_posted : (s.captureWriteStatus).posted = s.posted := rfl
@[simp] theorem State.captureWriteStatus_taken : (s.captureWriteStatus).taken = s.taken := rfl
@[simp] theorem State.captureWriteStatus_issuer : (s.captureWriteStatus).issuer = s.issuer := rfl
@[simp] theorem State.captureWriteStatus_moves : (s.captureWriteStatus).moves = s.moves := rfl
@[simp] theorem State.captureWriteStatus_tick : (s.captureWriteStatus).tick = s.tick := rfl
@[simp] theorem State.captureWriteStatus_bus : (s.captureWriteStatus).bus = s.bus := rfl

/-! ### `captureResult` -/

@[simp] theorem State.captureResult_sclOut : (s.captureResult).sclOut = s.sclOut := rfl
@[simp] theorem State.captureResult_sdaOut : (s.captureResult).sdaOut = s.sdaOut := rfl
@[simp] theorem State.captureResult_dev : (s.captureResult).dev = s.dev := rfl
@[simp] theorem State.captureResult_reg : (s.captureResult).reg = s.reg := rfl
@[simp] theorem State.captureResult_dat : (s.captureResult).dat = s.dat := rfl
@[simp] theorem State.captureResult_dir : (s.captureResult).dir = s.dir := rfl
@[simp] theorem State.captureResult_sr : (s.captureResult).sr = s.sr := rfl
@[simp] theorem State.captureResult_res : (s.captureResult).res = s.sr := rfl
@[simp] theorem State.captureResult_seq : (s.captureResult).seq = s.seq := rfl
@[simp] theorem State.captureResult_ack : (s.captureResult).ack = s.ack := rfl
@[simp] theorem State.captureResult_fail : (s.captureResult).fail = s.fail := rfl
@[simp] theorem State.captureResult_wstat : (s.captureResult).wstat = s.wstat := rfl
@[simp] theorem State.captureResult_timeout : (s.captureResult).timeout = s.timeout := rfl
@[simp] theorem State.captureResult_regd : (s.captureResult).regd = s.regd := rfl
@[simp] theorem State.captureResult_lock : (s.captureResult).lock = s.lock := rfl
@[simp] theorem State.captureResult_owner : (s.captureResult).owner = s.owner := rfl
@[simp] theorem State.captureResult_slots : (s.captureResult).slots = s.slots := rfl
@[simp] theorem State.captureResult_cfgTimeout : (s.captureResult).cfgTimeout = s.cfgTimeout := rfl
@[simp] theorem State.captureResult_env : (s.captureResult).env = s.env := rfl
@[simp] theorem State.captureResult_trace : (s.captureResult).trace = s.trace := rfl
@[simp] theorem State.captureResult_posted : (s.captureResult).posted = s.posted := rfl
@[simp] theorem State.captureResult_taken : (s.captureResult).taken = s.taken := rfl
@[simp] theorem State.captureResult_issuer : (s.captureResult).issuer = s.issuer := rfl
@[simp] theorem State.captureResult_moves : (s.captureResult).moves = s.moves := rfl
@[simp] theorem State.captureResult_tick : (s.captureResult).tick = s.tick := rfl
@[simp] theorem State.captureResult_bus : (s.captureResult).bus = s.bus := rfl

/-! ### `clearFlags` -/

@[simp] theorem State.clearFlags_sclOut : (s.clearFlags).sclOut = s.sclOut := rfl
@[simp] theorem State.clearFlags_sdaOut : (s.clearFlags).sdaOut = s.sdaOut := rfl
@[simp] theorem State.clearFlags_dev : (s.clearFlags).dev = s.dev := rfl
@[simp] theorem State.clearFlags_reg : (s.clearFlags).reg = s.reg := rfl
@[simp] theorem State.clearFlags_dat : (s.clearFlags).dat = s.dat := rfl
@[simp] theorem State.clearFlags_dir : (s.clearFlags).dir = s.dir := rfl
@[simp] theorem State.clearFlags_sr : (s.clearFlags).sr = s.sr := rfl
@[simp] theorem State.clearFlags_res : (s.clearFlags).res = s.res := rfl
@[simp] theorem State.clearFlags_seq : (s.clearFlags).seq = s.seq := rfl
@[simp] theorem State.clearFlags_ack : (s.clearFlags).ack = s.ack := rfl
@[simp] theorem State.clearFlags_fail : (s.clearFlags).fail = false := rfl
@[simp] theorem State.clearFlags_wstat : (s.clearFlags).wstat = false := rfl
@[simp] theorem State.clearFlags_timeout : (s.clearFlags).timeout = s.timeout := rfl
@[simp] theorem State.clearFlags_regd : (s.clearFlags).regd = s.regd := rfl
@[simp] theorem State.clearFlags_lock : (s.clearFlags).lock = s.lock := rfl
@[simp] theorem State.clearFlags_owner : (s.clearFlags).owner = s.owner := rfl
@[simp] theorem State.clearFlags_slots : (s.clearFlags).slots = s.slots := rfl
@[simp] theorem State.clearFlags_cfgTimeout : (s.clearFlags).cfgTimeout = s.cfgTimeout := rfl
@[simp] theorem State.clearFlags_env : (s.clearFlags).env = s.env := rfl
@[simp] theorem State.clearFlags_trace : (s.clearFlags).trace = s.trace := rfl
@[simp] theorem State.clearFlags_posted : (s.clearFlags).posted = s.posted := rfl
@[simp] theorem State.clearFlags_taken : (s.clearFlags).taken = s.taken := rfl
@[simp] theorem State.clearFlags_issuer : (s.clearFlags).issuer = s.issuer := rfl
@[simp] theorem State.clearFlags_moves : (s.clearFlags).moves = s.moves := rfl
@[simp] theorem State.clearFlags_tick : (s.clearFlags).tick = s.tick := rfl
@[simp] theorem State.clearFlags_bus : (s.clearFlags).bus = s.bus := rfl

/-! ### `setSlot` -/

@[simp] theorem State.setSlot_sclOut (p : Nat) (f : Slot → Slot) : (s.setSlot p f).sclOut = s.sclOut := rfl
@[simp] theorem State.setSlot_sdaOut (p : Nat) (f : Slot → Slot) : (s.setSlot p f).sdaOut = s.sdaOut := rfl
@[simp] theorem State.setSlot_dev (p : Nat) (f : Slot → Slot) : (s.setSlot p f).dev = s.dev := rfl
@[simp] theorem State.setSlot_reg (p : Nat) (f : Slot → Slot) : (s.setSlot p f).reg = s.reg := rfl
@[simp] theorem State.setSlot_dat (p : Nat) (f : Slot → Slot) : (s.setSlot p f).dat = s.dat := rfl
@[simp] theorem State.setSlot_dir (p : Nat) (f : Slot → Slot) : (s.setSlot p f).dir = s.dir := rfl
@[simp] theorem State.setSlot_sr (p : Nat) (f : Slot → Slot) : (s.setSlot p f).sr = s.sr := rfl
@[simp] theorem State.setSlot_res (p : Nat) (f : Slot → Slot) : (s.setSlot p f).res = s.res := rfl
@[simp] theorem State.setSlot_seq (p : Nat) (f : Slot → Slot) : (s.setSlot p f).seq = s.seq := rfl
@[simp] theorem State.setSlot_ack (p : Nat) (f : Slot → Slot) : (s.setSlot p f).ack = s.ack := rfl
@[simp] theorem State.setSlot_fail (p : Nat) (f : Slot → Slot) : (s.setSlot p f).fail = s.fail := rfl
@[simp] theorem State.setSlot_wstat (p : Nat) (f : Slot → Slot) : (s.setSlot p f).wstat = s.wstat := rfl
@[simp] theorem State.setSlot_timeout (p : Nat) (f : Slot → Slot) : (s.setSlot p f).timeout = s.timeout := rfl
@[simp] theorem State.setSlot_regd (p : Nat) (f : Slot → Slot) : (s.setSlot p f).regd = s.regd := rfl
@[simp] theorem State.setSlot_lock (p : Nat) (f : Slot → Slot) : (s.setSlot p f).lock = s.lock := rfl
@[simp] theorem State.setSlot_owner (p : Nat) (f : Slot → Slot) : (s.setSlot p f).owner = s.owner := rfl
@[simp] theorem State.setSlot_slots (p : Nat) (f : Slot → Slot) : (s.setSlot p f).slots = s.slots.modify p f := rfl
@[simp] theorem State.setSlot_cfgTimeout (p : Nat) (f : Slot → Slot) : (s.setSlot p f).cfgTimeout = s.cfgTimeout := rfl
@[simp] theorem State.setSlot_env (p : Nat) (f : Slot → Slot) : (s.setSlot p f).env = s.env := rfl
@[simp] theorem State.setSlot_trace (p : Nat) (f : Slot → Slot) : (s.setSlot p f).trace = s.trace := rfl
@[simp] theorem State.setSlot_posted (p : Nat) (f : Slot → Slot) : (s.setSlot p f).posted = s.posted := rfl
@[simp] theorem State.setSlot_taken (p : Nat) (f : Slot → Slot) : (s.setSlot p f).taken = s.taken := rfl
@[simp] theorem State.setSlot_issuer (p : Nat) (f : Slot → Slot) : (s.setSlot p f).issuer = s.issuer := rfl
@[simp] theorem State.setSlot_moves (p : Nat) (f : Slot → Slot) : (s.setSlot p f).moves = s.moves := rfl
@[simp] theorem State.setSlot_tick (p : Nat) (f : Slot → Slot) : (s.setSlot p f).tick = s.tick := rfl
@[simp] theorem State.setSlot_bus (p : Nat) (f : Slot → Slot) : (s.setSlot p f).bus = s.bus := rfl

/-! ### `respond` -/

@[simp] theorem State.respond_sclOut (p : Nat) (rw : BitVec 32) : (s.respond p rw).sclOut = s.sclOut := rfl
@[simp] theorem State.respond_sdaOut (p : Nat) (rw : BitVec 32) : (s.respond p rw).sdaOut = s.sdaOut := rfl
@[simp] theorem State.respond_dev (p : Nat) (rw : BitVec 32) : (s.respond p rw).dev = s.dev := rfl
@[simp] theorem State.respond_reg (p : Nat) (rw : BitVec 32) : (s.respond p rw).reg = s.reg := rfl
@[simp] theorem State.respond_dat (p : Nat) (rw : BitVec 32) : (s.respond p rw).dat = s.dat := rfl
@[simp] theorem State.respond_dir (p : Nat) (rw : BitVec 32) : (s.respond p rw).dir = s.dir := rfl
@[simp] theorem State.respond_sr (p : Nat) (rw : BitVec 32) : (s.respond p rw).sr = s.sr := rfl
@[simp] theorem State.respond_res (p : Nat) (rw : BitVec 32) : (s.respond p rw).res = s.res := rfl
@[simp] theorem State.respond_seq (p : Nat) (rw : BitVec 32) : (s.respond p rw).seq = s.seq := rfl
@[simp] theorem State.respond_ack (p : Nat) (rw : BitVec 32) : (s.respond p rw).ack = s.ack := rfl
@[simp] theorem State.respond_fail (p : Nat) (rw : BitVec 32) : (s.respond p rw).fail = s.fail := rfl
@[simp] theorem State.respond_wstat (p : Nat) (rw : BitVec 32) : (s.respond p rw).wstat = s.wstat := rfl
@[simp] theorem State.respond_timeout (p : Nat) (rw : BitVec 32) : (s.respond p rw).timeout = s.timeout := rfl
@[simp] theorem State.respond_regd (p : Nat) (rw : BitVec 32) : (s.respond p rw).regd = s.regd := rfl
@[simp] theorem State.respond_lock (p : Nat) (rw : BitVec 32) : (s.respond p rw).lock = s.lock := rfl
@[simp] theorem State.respond_owner (p : Nat) (rw : BitVec 32) : (s.respond p rw).owner = s.owner := rfl
@[simp] theorem State.respond_cfgTimeout (p : Nat) (rw : BitVec 32) : (s.respond p rw).cfgTimeout = s.cfgTimeout := rfl
@[simp] theorem State.respond_env (p : Nat) (rw : BitVec 32) : (s.respond p rw).env = s.env := rfl
@[simp] theorem State.respond_trace (p : Nat) (rw : BitVec 32) : (s.respond p rw).trace = s.trace := rfl
@[simp] theorem State.respond_posted (p : Nat) (rw : BitVec 32) : (s.respond p rw).posted = s.posted := rfl
@[simp] theorem State.respond_taken (p : Nat) (rw : BitVec 32) : (s.respond p rw).taken = s.taken := rfl
@[simp] theorem State.respond_issuer (p : Nat) (rw : BitVec 32) : (s.respond p rw).issuer = s.issuer := rfl
@[simp] theorem State.respond_moves (p : Nat) (rw : BitVec 32) : (s.respond p rw).moves = s.moves := rfl
@[simp] theorem State.respond_tick (p : Nat) (rw : BitVec 32) : (s.respond p rw).tick = s.tick := rfl
@[simp] theorem State.respond_bus (p : Nat) (rw : BitVec 32) : (s.respond p rw).bus = s.bus := rfl

/-! ### `refuse` -/

@[simp] theorem State.refuse_sclOut (p : Nat) (code : ResultCode) : (s.refuse p code).sclOut = s.sclOut := rfl
@[simp] theorem State.refuse_sdaOut (p : Nat) (code : ResultCode) : (s.refuse p code).sdaOut = s.sdaOut := rfl
@[simp] theorem State.refuse_dev (p : Nat) (code : ResultCode) : (s.refuse p code).dev = s.dev := rfl
@[simp] theorem State.refuse_reg (p : Nat) (code : ResultCode) : (s.refuse p code).reg = s.reg := rfl
@[simp] theorem State.refuse_dat (p : Nat) (code : ResultCode) : (s.refuse p code).dat = s.dat := rfl
@[simp] theorem State.refuse_dir (p : Nat) (code : ResultCode) : (s.refuse p code).dir = s.dir := rfl
@[simp] theorem State.refuse_sr (p : Nat) (code : ResultCode) : (s.refuse p code).sr = s.sr := rfl
@[simp] theorem State.refuse_res (p : Nat) (code : ResultCode) : (s.refuse p code).res = s.res := rfl
@[simp] theorem State.refuse_seq (p : Nat) (code : ResultCode) : (s.refuse p code).seq = s.seq := rfl
@[simp] theorem State.refuse_ack (p : Nat) (code : ResultCode) : (s.refuse p code).ack = s.ack := rfl
@[simp] theorem State.refuse_fail (p : Nat) (code : ResultCode) : (s.refuse p code).fail = s.fail := rfl
@[simp] theorem State.refuse_wstat (p : Nat) (code : ResultCode) : (s.refuse p code).wstat = s.wstat := rfl
@[simp] theorem State.refuse_timeout (p : Nat) (code : ResultCode) : (s.refuse p code).timeout = s.timeout := rfl
@[simp] theorem State.refuse_regd (p : Nat) (code : ResultCode) : (s.refuse p code).regd = s.regd := rfl
@[simp] theorem State.refuse_lock (p : Nat) (code : ResultCode) : (s.refuse p code).lock = s.lock := rfl
@[simp] theorem State.refuse_owner (p : Nat) (code : ResultCode) : (s.refuse p code).owner = s.owner := rfl
@[simp] theorem State.refuse_cfgTimeout (p : Nat) (code : ResultCode) : (s.refuse p code).cfgTimeout = s.cfgTimeout := rfl
@[simp] theorem State.refuse_env (p : Nat) (code : ResultCode) : (s.refuse p code).env = s.env := rfl
@[simp] theorem State.refuse_trace (p : Nat) (code : ResultCode) : (s.refuse p code).trace = s.trace := rfl
@[simp] theorem State.refuse_posted (p : Nat) (code : ResultCode) : (s.refuse p code).posted = s.posted := rfl
@[simp] theorem State.refuse_taken (p : Nat) (code : ResultCode) : (s.refuse p code).taken = s.taken := rfl
@[simp] theorem State.refuse_issuer (p : Nat) (code : ResultCode) : (s.refuse p code).issuer = s.issuer := rfl
@[simp] theorem State.refuse_moves (p : Nat) (code : ResultCode) : (s.refuse p code).moves = s.moves := rfl
@[simp] theorem State.refuse_tick (p : Nat) (code : ResultCode) : (s.refuse p code).tick = s.tick := rfl
@[simp] theorem State.refuse_bus (p : Nat) (code : ResultCode) : (s.refuse p code).bus = s.bus := rfl

/-! ### `acquire` -/

@[simp] theorem State.acquire_sclOut (p : Nat) (k : CmdK) (dev : BitVec 7) (reg dat : BitVec 8) : (s.acquire p k dev reg dat).sclOut = s.sclOut := rfl
@[simp] theorem State.acquire_sdaOut (p : Nat) (k : CmdK) (dev : BitVec 7) (reg dat : BitVec 8) : (s.acquire p k dev reg dat).sdaOut = s.sdaOut := rfl
@[simp] theorem State.acquire_dev (p : Nat) (k : CmdK) (dev : BitVec 7) (reg dat : BitVec 8) : (s.acquire p k dev reg dat).dev = dev := rfl
@[simp] theorem State.acquire_reg (p : Nat) (k : CmdK) (dev : BitVec 7) (reg dat : BitVec 8) : (s.acquire p k dev reg dat).reg = reg := rfl
@[simp] theorem State.acquire_dat (p : Nat) (k : CmdK) (dev : BitVec 7) (reg dat : BitVec 8) : (s.acquire p k dev reg dat).dat = dat := rfl
@[simp] theorem State.acquire_dir (p : Nat) (k : CmdK) (dev : BitVec 7) (reg dat : BitVec 8) : (s.acquire p k dev reg dat).dir = decide (k = .rdreg) := rfl
@[simp] theorem State.acquire_sr (p : Nat) (k : CmdK) (dev : BitVec 7) (reg dat : BitVec 8) : (s.acquire p k dev reg dat).sr = s.sr := rfl
@[simp] theorem State.acquire_res (p : Nat) (k : CmdK) (dev : BitVec 7) (reg dat : BitVec 8) : (s.acquire p k dev reg dat).res = s.res := rfl
@[simp] theorem State.acquire_seq (p : Nat) (k : CmdK) (dev : BitVec 7) (reg dat : BitVec 8) : (s.acquire p k dev reg dat).seq = ⟨k, 0, .start, 0⟩ := rfl
@[simp] theorem State.acquire_ack (p : Nat) (k : CmdK) (dev : BitVec 7) (reg dat : BitVec 8) : (s.acquire p k dev reg dat).ack = s.ack := rfl
@[simp] theorem State.acquire_fail (p : Nat) (k : CmdK) (dev : BitVec 7) (reg dat : BitVec 8) : (s.acquire p k dev reg dat).fail = false := rfl
@[simp] theorem State.acquire_wstat (p : Nat) (k : CmdK) (dev : BitVec 7) (reg dat : BitVec 8) : (s.acquire p k dev reg dat).wstat = false := rfl
@[simp] theorem State.acquire_timeout (p : Nat) (k : CmdK) (dev : BitVec 7) (reg dat : BitVec 8) : (s.acquire p k dev reg dat).timeout = s.timeout := rfl
@[simp] theorem State.acquire_regd (p : Nat) (k : CmdK) (dev : BitVec 7) (reg dat : BitVec 8) : (s.acquire p k dev reg dat).regd = s.regd := rfl
@[simp] theorem State.acquire_lock (p : Nat) (k : CmdK) (dev : BitVec 7) (reg dat : BitVec 8) : (s.acquire p k dev reg dat).lock = true := rfl
@[simp] theorem State.acquire_owner (p : Nat) (k : CmdK) (dev : BitVec 7) (reg dat : BitVec 8) : (s.acquire p k dev reg dat).owner = p := rfl
@[simp] theorem State.acquire_slots (p : Nat) (k : CmdK) (dev : BitVec 7) (reg dat : BitVec 8) : (s.acquire p k dev reg dat).slots = s.slots := rfl
@[simp] theorem State.acquire_cfgTimeout (p : Nat) (k : CmdK) (dev : BitVec 7) (reg dat : BitVec 8) : (s.acquire p k dev reg dat).cfgTimeout = s.cfgTimeout := rfl
@[simp] theorem State.acquire_env (p : Nat) (k : CmdK) (dev : BitVec 7) (reg dat : BitVec 8) : (s.acquire p k dev reg dat).env = s.env := rfl
@[simp] theorem State.acquire_trace (p : Nat) (k : CmdK) (dev : BitVec 7) (reg dat : BitVec 8) : (s.acquire p k dev reg dat).trace = s.trace := rfl
@[simp] theorem State.acquire_posted (p : Nat) (k : CmdK) (dev : BitVec 7) (reg dat : BitVec 8) : (s.acquire p k dev reg dat).posted = s.posted := rfl
@[simp] theorem State.acquire_taken (p : Nat) (k : CmdK) (dev : BitVec 7) (reg dat : BitVec 8) : (s.acquire p k dev reg dat).taken = s.taken := rfl
@[simp] theorem State.acquire_issuer (p : Nat) (k : CmdK) (dev : BitVec 7) (reg dat : BitVec 8) : (s.acquire p k dev reg dat).issuer = s.issuer := rfl
@[simp] theorem State.acquire_moves (p : Nat) (k : CmdK) (dev : BitVec 7) (reg dat : BitVec 8) : (s.acquire p k dev reg dat).moves = s.moves := rfl
@[simp] theorem State.acquire_tick (p : Nat) (k : CmdK) (dev : BitVec 7) (reg dat : BitVec 8) : (s.acquire p k dev reg dat).tick = s.tick := rfl
@[simp] theorem State.acquire_bus (p : Nat) (k : CmdK) (dev : BitVec 7) (reg dat : BitVec 8) : (s.acquire p k dev reg dat).bus = s.bus := rfl

/-! ### `release` -/

@[simp] theorem State.release_sclOut : (s.release).sclOut = s.sclOut := rfl
@[simp] theorem State.release_sdaOut : (s.release).sdaOut = s.sdaOut := rfl
@[simp] theorem State.release_dev : (s.release).dev = s.dev := rfl
@[simp] theorem State.release_reg : (s.release).reg = s.reg := rfl
@[simp] theorem State.release_dat : (s.release).dat = s.dat := rfl
@[simp] theorem State.release_dir : (s.release).dir = s.dir := rfl
@[simp] theorem State.release_sr : (s.release).sr = s.sr := rfl
@[simp] theorem State.release_res : (s.release).res = s.res := rfl
@[simp] theorem State.release_seq : (s.release).seq = Seq.idle := rfl
@[simp] theorem State.release_ack : (s.release).ack = s.ack := rfl
@[simp] theorem State.release_fail : (s.release).fail = s.fail := rfl
@[simp] theorem State.release_wstat : (s.release).wstat = s.wstat := rfl
@[simp] theorem State.release_timeout : (s.release).timeout = s.timeout := rfl
@[simp] theorem State.release_regd : (s.release).regd = s.regd := rfl
@[simp] theorem State.release_lock : (s.release).lock = false := rfl
@[simp] theorem State.release_owner : (s.release).owner = s.owner := rfl
@[simp] theorem State.release_cfgTimeout : (s.release).cfgTimeout = s.cfgTimeout := rfl
@[simp] theorem State.release_env : (s.release).env = s.env := rfl
@[simp] theorem State.release_trace : (s.release).trace = s.trace := rfl
@[simp] theorem State.release_posted : (s.release).posted = s.posted := rfl
@[simp] theorem State.release_taken : (s.release).taken = s.taken := rfl
@[simp] theorem State.release_issuer : (s.release).issuer = s.issuer := rfl
@[simp] theorem State.release_moves : (s.release).moves = s.moves := rfl
@[simp] theorem State.release_tick : (s.release).tick = s.tick := rfl
@[simp] theorem State.release_bus : (s.release).bus = s.bus := rfl

/-! ### `pushMove` -/

@[simp] theorem State.pushMove_sclOut (m : Move) : (s.pushMove m).sclOut = s.sclOut := rfl
@[simp] theorem State.pushMove_sdaOut (m : Move) : (s.pushMove m).sdaOut = s.sdaOut := rfl
@[simp] theorem State.pushMove_dev (m : Move) : (s.pushMove m).dev = s.dev := rfl
@[simp] theorem State.pushMove_reg (m : Move) : (s.pushMove m).reg = s.reg := rfl
@[simp] theorem State.pushMove_dat (m : Move) : (s.pushMove m).dat = s.dat := rfl
@[simp] theorem State.pushMove_dir (m : Move) : (s.pushMove m).dir = s.dir := rfl
@[simp] theorem State.pushMove_sr (m : Move) : (s.pushMove m).sr = s.sr := rfl
@[simp] theorem State.pushMove_res (m : Move) : (s.pushMove m).res = s.res := rfl
@[simp] theorem State.pushMove_seq (m : Move) : (s.pushMove m).seq = s.seq := rfl
@[simp] theorem State.pushMove_ack (m : Move) : (s.pushMove m).ack = s.ack := rfl
@[simp] theorem State.pushMove_fail (m : Move) : (s.pushMove m).fail = s.fail := rfl
@[simp] theorem State.pushMove_wstat (m : Move) : (s.pushMove m).wstat = s.wstat := rfl
@[simp] theorem State.pushMove_timeout (m : Move) : (s.pushMove m).timeout = s.timeout := rfl
@[simp] theorem State.pushMove_regd (m : Move) : (s.pushMove m).regd = s.regd := rfl
@[simp] theorem State.pushMove_lock (m : Move) : (s.pushMove m).lock = s.lock := rfl
@[simp] theorem State.pushMove_owner (m : Move) : (s.pushMove m).owner = s.owner := rfl
@[simp] theorem State.pushMove_slots (m : Move) : (s.pushMove m).slots = s.slots := rfl
@[simp] theorem State.pushMove_cfgTimeout (m : Move) : (s.pushMove m).cfgTimeout = s.cfgTimeout := rfl
@[simp] theorem State.pushMove_env (m : Move) : (s.pushMove m).env = s.env := rfl
@[simp] theorem State.pushMove_trace (m : Move) : (s.pushMove m).trace = s.trace := rfl
@[simp] theorem State.pushMove_posted (m : Move) : (s.pushMove m).posted = s.posted := rfl
@[simp] theorem State.pushMove_taken (m : Move) : (s.pushMove m).taken = s.taken := rfl
@[simp] theorem State.pushMove_issuer (m : Move) : (s.pushMove m).issuer = s.issuer := rfl
@[simp] theorem State.pushMove_moves (m : Move) : (s.pushMove m).moves = m :: s.moves := rfl
@[simp] theorem State.pushMove_tick (m : Move) : (s.pushMove m).tick = s.tick := rfl
@[simp] theorem State.pushMove_bus (m : Move) : (s.pushMove m).bus = s.bus := rfl

/-! ### `placeAt` -/

@[simp] theorem State.placeAt_sclOut (q : Seq) : (s.placeAt q).sclOut = s.sclOut := rfl
@[simp] theorem State.placeAt_sdaOut (q : Seq) : (s.placeAt q).sdaOut = s.sdaOut := rfl
@[simp] theorem State.placeAt_dev (q : Seq) : (s.placeAt q).dev = s.dev := rfl
@[simp] theorem State.placeAt_reg (q : Seq) : (s.placeAt q).reg = s.reg := rfl
@[simp] theorem State.placeAt_dat (q : Seq) : (s.placeAt q).dat = s.dat := rfl
@[simp] theorem State.placeAt_dir (q : Seq) : (s.placeAt q).dir = s.dir := rfl
@[simp] theorem State.placeAt_sr (q : Seq) : (s.placeAt q).sr = s.sr := rfl
@[simp] theorem State.placeAt_res (q : Seq) : (s.placeAt q).res = s.res := rfl
@[simp] theorem State.placeAt_seq (q : Seq) : (s.placeAt q).seq = q := rfl
@[simp] theorem State.placeAt_ack (q : Seq) : (s.placeAt q).ack = s.ack := rfl
@[simp] theorem State.placeAt_fail (q : Seq) : (s.placeAt q).fail = s.fail := rfl
@[simp] theorem State.placeAt_wstat (q : Seq) : (s.placeAt q).wstat = s.wstat := rfl
@[simp] theorem State.placeAt_timeout (q : Seq) : (s.placeAt q).timeout = s.timeout := rfl
@[simp] theorem State.placeAt_regd (q : Seq) : (s.placeAt q).regd = true := rfl
@[simp] theorem State.placeAt_lock (q : Seq) : (s.placeAt q).lock = true := rfl
@[simp] theorem State.placeAt_owner (q : Seq) : (s.placeAt q).owner = 0 := rfl
@[simp] theorem State.placeAt_slots (q : Seq) : (s.placeAt q).slots = s.slots := rfl
@[simp] theorem State.placeAt_cfgTimeout (q : Seq) : (s.placeAt q).cfgTimeout = s.cfgTimeout := rfl
@[simp] theorem State.placeAt_env (q : Seq) : (s.placeAt q).env = s.env := rfl
@[simp] theorem State.placeAt_trace (q : Seq) : (s.placeAt q).trace = s.trace := rfl
@[simp] theorem State.placeAt_posted (q : Seq) : (s.placeAt q).posted = s.posted := rfl
@[simp] theorem State.placeAt_taken (q : Seq) : (s.placeAt q).taken = s.taken := rfl
@[simp] theorem State.placeAt_issuer (q : Seq) : (s.placeAt q).issuer = s.issuer := rfl
@[simp] theorem State.placeAt_moves (q : Seq) : (s.placeAt q).moves = s.moves := rfl
@[simp] theorem State.placeAt_tick (q : Seq) : (s.placeAt q).tick = s.tick := rfl
@[simp] theorem State.placeAt_bus (q : Seq) : (s.placeAt q).bus = s.bus := rfl

/-! ### The latches under `perform` -/

@[simp] theorem State.perform_setc_sclOut (l : Level) : (s.perform (.setc l)).sclOut = l := rfl
@[simp] theorem State.perform_setd_sclOut (l : Level) : (s.perform (.setd l)).sclOut = s.sclOut := rfl
@[simp] theorem State.perform_getd_sclOut : (s.perform .getd).sclOut = s.sclOut := rfl
@[simp] theorem State.perform_dly_sclOut : (s.perform .dly).sclOut = s.sclOut := rfl
@[simp] theorem State.perform_setc_sdaOut (l : Level) : (s.perform (.setc l)).sdaOut = s.sdaOut := rfl
@[simp] theorem State.perform_setd_sdaOut (l : Level) : (s.perform (.setd l)).sdaOut = l := rfl
@[simp] theorem State.perform_getd_sdaOut : (s.perform .getd).sdaOut = s.sdaOut := rfl
@[simp] theorem State.perform_dly_sdaOut : (s.perform .dly).sdaOut = s.sdaOut := rfl

/-! ### The slots under an answer -/

@[simp] theorem State.respond_slots (p : Nat) (rw : BitVec 32) : (s.respond p rw).slots =
    s.slots.modify p (fun sl => { sl with reqValid := false, rspValid := true, rspRw := rw }) := rfl
@[simp] theorem State.refuse_slots (p : Nat) (code : ResultCode) : (s.refuse p code).slots =
    s.slots.modify p (fun sl => { sl with reqValid := false, rspValid := true, rspRw := resultWord false code 0#8 }) := rfl
@[simp] theorem State.release_slots : s.release.slots =
    s.slots.modify s.owner (fun sl => { sl with reqValid := false, rspValid := true, rspRw := s.releaseWord }) := rfl

end Sys2Proof.Machine
end

