-- ==== Sys2Proof/Laws/Ops.lean ====
section
/-!
SUPPORT. For each shared operation, once, everything it can do.
-/

namespace Sys2Proof.Machine

/-- An answer changes the requester's own slot in the way of R143 and R154. -/
theorem State.respond_slot_same {s : State} {p : Nat} {sl : Slot} (rw : BitVec 32) (h : s.slot? p = some sl) :
    (s.respond p rw).slot? p = some { sl with reqValid := false, rspValid := true, rspRw := rw } := by
  simp_all [State.slot?]

/-- An answer to one requester leaves the slots of the others alone. -/
theorem State.respond_slot_other {s : State} {p q : Nat} (rw : BitVec 32) (h : q ≠ p) :
    (s.respond p rw).slot? q = s.slot? q := by
  simp [State.slot?, Ne.symm h]

/-- An answer gives no requester a slot or takes one away. -/
theorem State.respond_length (s : State) (p : Nat) (rw : BitVec 32) :
    (s.respond p rw).slots.length = s.slots.length := by
  simp

/-- The acceptance of a transaction command has one of three outcomes (R141, R142). -/
theorem State.withLock_cases (k : CmdK) (dev : BitVec 7) (reg dat : BitVec 8) (body : State → State) (s : State) :
    (s.regd = false ∧ s.withLock k dev reg dat body = s.refuse s.issuer .busNotFound) ∨
    (s.regd = true ∧ s.lock = true ∧ s.withLock k dev reg dat body = s) ∨
    (s.regd = true ∧ s.lock = false ∧
      s.withLock k dev reg dat body = body (s.acquire s.issuer k dev reg dat)) := by
  unfold State.withLock
  cases hr : s.regd <;> cases hl : s.lock <;> simp

/-- `INIT` has one of two outcomes (R140). -/
theorem execInit_cases (s : State) :
    (s.regd = true ∧ execInit s = .next (s.refuse s.issuer .registrationConflict)) ∨
    (s.regd = false ∧ execInit s = .next (State.respond s.issuer (resultWord false .ok 0#8)
      { s with lock := false, timeout := registeredTimeout s.cfgTimeout, regd := true })) := by
  unfold execInit
  cases hr : s.regd <;> simp

/-- Posting a command has one of two outcomes (R145). -/
theorem State.post_cases (p : Nat) (cw : BitVec 32) (s : State) :
    s.post p cw = s ∨
    ∃ sl, s.slot? p = some sl ∧ sl.free = true ∧
      s.post p cw = { s.setSlot p (fun sl => { sl with reqValid := true, reqCw := cw }) with
        posted := s.posted ++ [(p, cw)] } := by
  unfold State.post
  cases h : s.slot? p with
  | none => exact .inl rfl
  | some sl =>
    cases hf : sl.free with
    | false => left; simp [hf]
    | true => right; exact ⟨sl, rfl, hf, by simp [hf]⟩

/-- Taking a result has one of two outcomes (R145). -/
theorem State.take_cases (p : Nat) (s : State) :
    s.take p = s ∨
    ∃ sl, s.slot? p = some sl ∧ sl.rspValid = true ∧
      s.take p = { s.setSlot p (fun sl => { sl with rspValid := false }) with taken := s.taken ++ [(p, sl.rspRw)] } := by
  unfold State.take
  cases h : s.slot? p with
  | none => exact .inl rfl
  | some sl =>
    cases hv : sl.rspValid with
    | false => left; simp [hv]
    | true => right; exact ⟨sl, rfl, hv, by simp [hv]⟩

/-- A continuation reaches a next state exactly from one. -/
theorem andThen_next {o : Host.Outcome State Fault Refusal} {f : State → State} {t : State} :
    andThen o f = .next t ↔ ∃ s, o = .next s ∧ f s = t := by
  cases o <;> simp [andThen]

/-- Continuing with the state as it is changes nothing. -/
theorem andThen_id (o : Host.Outcome State Fault Refusal) : andThen o id = o := by
  cases o <;> rfl

/-- The meaning of an instruction never stops: it always gives a next state. -/
theorem exec_ne_fault (i : Instr) (s : State) : ∃ t, exec i s = .next t := by
  cases i
  case init => obtain ⟨_, h⟩ | ⟨_, h⟩ := execInit_cases s <;> exact ⟨_, h⟩
  all_goals exact ⟨_, rfl⟩

/-- The result codes as numbers, with nothing else in the word (R76). -/
theorem resultWord_refused (code : ResultCode) :
    resultWord false code 0#8 = (resultCodeBits code).setWidth 32 <<< 8 := by
  cases code <;> decide

end Sys2Proof.Machine
end

