-- ==== Sys2Proof/Laws/PerInstr.lean ====
section
/-!
SUPPORT. A family of statements made per instruction: the code of an instruction lies in the row of the opcode table
that carries its mnemonic (R75, R77, R78).
-/

namespace Sys2Proof.Laws.EncodingInItsRow

/-- Some row of the opcode table has the instruction's mnemonic and selects its code. -/
def Statement (i : Instr) : Prop := ∃ r ∈ opcodeTable, r.mnemonic = i.mnemonic ∧ r.selects (encode i) = true

theorem wrreg (dev : BitVec 7) (reg val : BitVec 8) : Statement (.wrreg dev reg val) := by
  refine ⟨⟨"WRREG", .cmd 0x10000000#32, .cmd 0xFF800000#32⟩, by simp [opcodeTable], rfl, ?_⟩
  simp only [encode, OpcodeRow.selects, commandWord, beq_iff_eq]
  ext i hi
  interval_cases i <;> simp

theorem rdreg (dev : BitVec 7) (reg : BitVec 8) : Statement (.rdreg dev reg) := by
  refine ⟨⟨"RDREG", .cmd 0x20000000#32, .cmd 0xFF8000FF#32⟩, by simp [opcodeTable], rfl, ?_⟩
  simp only [encode, OpcodeRow.selects, commandWord, beq_iff_eq]
  ext i hi
  interval_cases i <;> simp

theorem init : Statement .init :=
  ⟨⟨"INIT", .cmd 0x30000000#32, .cmd 0xFFFFFFFF#32⟩, by simp [opcodeTable], rfl, by decide⟩

theorem start : Statement .start := ⟨⟨"START", .prim 0b001#3, .prim 0b111#3⟩, by simp [opcodeTable], rfl, by decide⟩

theorem stop : Statement .stop := ⟨⟨"STOP", .prim 0b010#3, .prim 0b111#3⟩, by simp [opcodeTable], rfl, by decide⟩

theorem noack : Statement .noack := ⟨⟨"NOACK", .prim 0b011#3, .prim 0b111#3⟩, by simp [opcodeTable], rfl, by decide⟩

theorem wrbyte : Statement .wrbyte := ⟨⟨"WRBYTE", .prim 0b100#3, .prim 0b111#3⟩, by simp [opcodeTable], rfl, by decide⟩

theorem rdbyte : Statement .rdbyte := ⟨⟨"RDBYTE", .prim 0b101#3, .prim 0b111#3⟩, by simp [opcodeTable], rfl, by decide⟩

theorem setc (l : Bool) : Statement (.setc l) :=
  ⟨⟨"SETC", .lop 0b000#3, .lop 0b110#3⟩, by simp [opcodeTable], rfl, by cases l <;> decide⟩

theorem setd (l : Bool) : Statement (.setd l) :=
  ⟨⟨"SETD", .lop 0b010#3, .lop 0b110#3⟩, by simp [opcodeTable], rfl, by cases l <;> decide⟩

theorem getd : Statement .getd := ⟨⟨"GETD", .lop 0b100#3, .lop 0b111#3⟩, by simp [opcodeTable], rfl, by decide⟩

theorem dly : Statement .dly := ⟨⟨"DLY", .lop 0b110#3, .lop 0b111#3⟩, by simp [opcodeTable], rfl, by decide⟩

end Sys2Proof.Laws.EncodingInItsRow
end

