-- ==== Sys2Proof/Laws/Record.lean ====
section
/-!
SUPPORT. The records of posted commands and taken results, requester by requester, and the instances of a system after
reset.
-/

namespace Sys2Proof.Machine

@[simp] theorem wordsOf_nil (p : Nat) : wordsOf p [] = [] := rfl

/-- A new entry is the last of its own requester. -/
theorem wordsOf_append_same (p : Nat) (w : BitVec 32) (record : List (Nat × BitVec 32)) :
    wordsOf p (record ++ [(p, w)]) = wordsOf p record ++ [w] := by
  simp [wordsOf]

/-- A new entry of one requester leaves the others' entries as they are. -/
theorem wordsOf_append_other {p q : Nat} (w : BitVec 32) (record : List (Nat × BitVec 32)) (h : q ≠ p) :
    wordsOf p (record ++ [(q, w)]) = wordsOf p record := by
  simp [wordsOf, h]

/-- A system has `NBUS` instances after reset (R8). -/
theorem System.reset_length : System.reset.length = Config.nbus := by
  simp [System.reset]

/-- Instance `k` of a system after reset is the reset state of its index. -/
theorem System.reset_getElem? {k : Nat} (h : k < Config.nbus) : System.reset[k]? = some (State.resetAt k) := by
  simp [System.reset, h]

end Sys2Proof.Machine
end

