-- ==== Sys2Proof/Laws/Step.lean ====
section
/-!
SUPPORT. What one step can do, said once: a step is one move, and each move that leads to a next state has one of the
forms below.
-/

namespace Sys2Proof.Machine

/-- Everything an engine step that goes on can do (R28). -/
theorem State.engineStep_cases {s t : State} (h : s.engineStep = .next t) :
    (s.lock = false ∧ t = s) ∨
    (s.lock = true ∧ engineNext s.seq s.sr = some .release ∧ t = s.release) ∨
    (s.lock = true ∧ ∃ op, engineNext s.seq s.sr = some (.perform op) ∧
      t = ((s.perform op).storeSample op s.sdaIn).advance) := by
  unfold State.engineStep at h
  split at h
  · rename_i hl
    injection h with h
    exact .inl ⟨hl, h.symm⟩
  · rename_i hl
    have hl : s.lock = true := by simpa using hl
    cases hn : engineNext s.seq s.sr with
    | none => simp [hn] at h
    | some x =>
      cases x with
      | release =>
        simp only [hn] at h
        injection h with h
        exact .inr (.inl ⟨hl, rfl, h.symm⟩)
      | perform op =>
        simp only [hn, decode_lop_code] at h
        refine .inr (.inr ⟨hl, op, rfl, ?_⟩)
        cases op <;>
          simp only [LineOp.instr, exec, execSetc, execSetd, execGetd, execDly, andThen] at h <;>
          (injection h with h; exact h.symm)

/-- An engine step at a line operation performs it and advances (R28). -/
theorem State.engineStep_perform {s : State} {op : LineOp} (hl : s.lock = true)
    (hn : engineNext s.seq s.sr = some (.perform op)) :
    s.engineStep = .next ((s.perform op).storeSample op s.sdaIn).advance := by
  unfold State.engineStep
  simp only [hl, hn, decode_lop_code]
  cases op <;> rfl

/-- An engine step at the release step releases (R143). -/
theorem State.engineStep_release {s : State} (hl : s.lock = true) (hn : engineNext s.seq s.sr = some .release) :
    s.engineStep = .next s.release := by
  unfold State.engineStep
  simp [hl, hn]

/-- Everything the answer to a posted command that goes on can do (R141). -/
theorem State.answer_cases {s t : State} {p : Nat} {run : Instr → State → Host.Outcome State Fault Refusal}
    (h : s.answer p run = .next t) :
    t = s ∨
    ∃ sl, s.slot? p = some sl ∧ sl.pending = true ∧
      ((decodeCommand sl.reqCw = .error .illegalCommand ∧ t = s.refuse p .illegalCommand) ∨
       (∃ i, decodeCommand sl.reqCw = .ok i ∧ run i { s with issuer := p } = .next t)) := by
  unfold State.answer at h
  cases hs : s.slot? p with
  | none =>
    simp only [hs] at h
    injection h with h
    exact .inl h.symm
  | some sl =>
    simp only [hs] at h
    split at h
    · rename_i hp
      refine .inr ⟨sl, rfl, hp, ?_⟩
      simp only [decode] at h
      cases hd : decodeCommand sl.reqCw with
      | error e =>
        simp only [hd] at h
        injection h with h
        have he : e = .illegalCommand := by
          unfold decodeCommand at hd
          repeat' split at hd
          all_goals first | cases hd; rfl | cases hd
        exact .inl ⟨by rw [he], h.symm⟩
      | ok i =>
        simp only [hd] at h
        exact .inr ⟨i, rfl, h⟩
    · injection h with h
      exact .inl h.symm

/-- The bookkeeping of the list of moves changes no other field. -/
theorem State.popMove_eq (s : State) : ∃ ms n, s.popMove = { s with moves := ms, tick := n } := by
  unfold State.popMove
  cases h : s.moves with
  | nil => exact ⟨[], s.tick + 1, by simp [← h]⟩
  | cons m ms => exact ⟨ms, s.tick, rfl⟩

/-- A step that goes on is one move of one agent (R28, R145, R156). -/
theorem step_cases {s t : State} (h : step s = .next t) :
    (∃ p cw, s.nextMove = .post p cw ∧ t = s.popMove.post p cw) ∨
    (∃ p, s.nextMove = .take p ∧ t = s.popMove.take p) ∨
    (∃ v, s.nextMove = .present v ∧ t = { s.popMove with cfgTimeout := v }) ∨
    (∃ p, s.nextMove = .grant p ∧ s.popMove.answer p grantInstr = .next t) ∨
    (s.nextMove = .engine ∧ s.popMove.engineStep = .next t) ∨
    (s.nextMove = .primitive ∧ s.popMove.primitiveStep = .next t) ∨
    (∃ p, s.nextMove = .command p ∧ s.popMove.answer p exec = .next t) := by
  unfold step runMove at h
  cases hm : s.nextMove <;> simp only [hm] at h
  case post p cw =>
    injection h with h
    exact .inl ⟨p, cw, rfl, h.symm⟩
  case take p =>
    injection h with h
    exact .inr (.inl ⟨p, rfl, h.symm⟩)
  case present v =>
    injection h with h
    exact .inr (.inr (.inl ⟨v, rfl, h.symm⟩))
  case grant p => exact .inr (.inr (.inr (.inl ⟨p, rfl, h⟩)))
  case engine => exact .inr (.inr (.inr (.inr (.inl ⟨rfl, h⟩))))
  case primitive => exact .inr (.inr (.inr (.inr (.inr (.inl ⟨rfl, h⟩)))))
  case command p => exact .inr (.inr (.inr (.inr (.inr (.inr ⟨p, rfl, h⟩)))))

end Sys2Proof.Machine
end

