-- ==== Sys2Proof/Laws/Trace.lean ====
section
/-!
SUPPORT. How traces compose: what the latches, the environment and the samples are after one trace and then another, and
each line operation as a trace of one token.
-/

namespace Sys2Proof.Machine

/-- The environment over a trace in two parts. -/
theorem watch_append (a b : List Token) (scl sda : Level) (e : Environment) :
    watch (a ++ b) scl sda e =
      watch b (a.foldl (fun l tok => sclAfter tok l) scl) (a.foldl (fun l tok => sdaAfter tok l) sda)
        (watch a scl sda e) := by
  induction a generalizing scl sda e with
  | nil => rfl
  | cons tok rest ih => simp [watch, ih]

/-- Two traces one after the other are their concatenation. -/
theorem State.after_after (s : State) (a b : List Token) : (s.after a).after b = s.after (a ++ b) := by
  simp [State.after, watch_append, List.foldl_append]

@[simp] theorem State.after_nil (s : State) : s.after [] = s := by
  simp [State.after, watch]

/-- A sample after two traces is a sample after their concatenation. -/
theorem presentedAfter_after (s : State) (a b : List Token) :
    presentedAfter (s.after a) b = presentedAfter s (a ++ b) := by
  simp [presentedAfter, State.after, watch_append]

/-- The level presented now is the one presented after no operation. -/
theorem State.sdaIn_after (s : State) (tr : List Token) : (s.after tr).sdaIn = presentedAfter s tr := rfl

theorem State.perform_setc_eq_after (s : State) (l : Level) : s.perform (.setc l) = s.after [.c l] := rfl

theorem State.perform_setd_eq_after (s : State) (l : Level) : s.perform (.setd l) = s.after [.d l] := rfl

theorem State.perform_dly_eq_after (s : State) : s.perform .dly = s.after [.t] := rfl

theorem State.perform_getd_eq_after (s : State) : s.perform .getd = s.after [.g s.sdaIn] := rfl

/-! The operations of a trace write no data register and no flag, so such a write may be placed before or after them, and
it does not matter to what the environment presents. -/

theorem State.loadSr_after (s : State) (v : BitVec 8) (tr : List Token) :
    (s.loadSr v).after tr = (s.after tr).loadSr v := rfl

theorem State.setAck_after (s : State) (r : Level) (tr : List Token) :
    (s.setAck r).after tr = (s.after tr).setAck r := rfl

theorem State.recordDeviceNotFound_after (s : State) (tr : List Token) :
    s.recordDeviceNotFound.after tr = (s.after tr).recordDeviceNotFound := rfl

theorem State.captureWriteStatus_after (s : State) (tr : List Token) :
    s.captureWriteStatus.after tr = (s.after tr).captureWriteStatus := rfl

theorem State.captureResult_after (s : State) (tr : List Token) :
    s.captureResult.after tr = (s.after tr).captureResult := rfl

theorem State.acquire_after (s : State) (p : Nat) (k : CmdK) (dev : BitVec 7) (reg dat : BitVec 8) (tr : List Token) :
    (s.acquire p k dev reg dat).after tr = (s.after tr).acquire p k dev reg dat := rfl

theorem presentedAfter_loadSr (s : State) (v : BitVec 8) (tr : List Token) :
    presentedAfter (s.loadSr v) tr = presentedAfter s tr := rfl

theorem presentedAfter_setAck (s : State) (r : Level) (tr : List Token) :
    presentedAfter (s.setAck r) tr = presentedAfter s tr := rfl

theorem presentedAfter_acquire (s : State) (p : Nat) (k : CmdK) (dev : BitVec 7) (reg dat : BitVec 8) (tr : List Token) :
    presentedAfter (s.acquire p k dev reg dat) tr = presentedAfter s tr := rfl

/-- A trace moves on the patterns of what follows from the levels it leaves. -/
theorem patterns_append (a b : List Token) (scl sda : Level) :
    patterns (a ++ b) scl sda =
      patterns a scl sda ++ patterns b (a.foldl (fun l tok => sclAfter tok l) scl)
        (a.foldl (fun l tok => sdaAfter tok l) sda) := by
  induction a generalizing scl sda with
  | nil => rfl
  | cons tok rest ih => simp [patterns, ih, List.append_assoc]

end Sys2Proof.Machine
end

