-- ==== Sys2Proof/Tests/Slice0.lean ====
section
/-!
SUPPORT. Tests: the checks of WellFormed on ill-formed terms, words written out from the encodings of the spec,
worked vectors of 95_test_vectors.md, and for every obligation with hypotheses a state that meets them.
-/

open Sys2Proof Sys2Proof.Machine

namespace Sys2Proof.Tests

/-! ### Small states -/

/-- A registered instance with two requesters, requester 0 having posted `cw`. -/
def posted (cw : BitVec 32) (e : Environment) (ms : List Move) : State :=
  { State.reset with
    regd := true, timeout := 1000#32, cfgTimeout := 0#32
    slots := [⟨true, cw, false, 0#32⟩, Slot.reset]
    env := e, moves := ms }

/-- Requester 0's `WRREG 0x21, 0x01, 0xFF` in flight at a sequencer position with given levels. -/
def writing (q : Seq) (scl sda : Level) (sr : BitVec 8) (e : Environment) (ms : List Move) : State :=
  { posted 0x102101FF#32 e ms with
    lock := true, dev := 0x21#7, reg := 0x01#8, dat := 0xFF#8, seq := q, sclOut := scl, sdaOut := sda, sr := sr }

/-- Requester 0's `RDREG 0x21, 0x01` in flight at a sequencer position with given levels. -/
def reading (q : Seq) (scl sda : Level) (sr : BitVec 8) (e : Environment) (ms : List Move) : State :=
  { posted 0x20210100#32 e ms with
    lock := true, dev := 0x21#7, reg := 0x01#8, dat := 0x00#8, dir := true
    seq := q, sclOut := scl, sdaOut := sda, sr := sr }

/-- The reference responder of the vectors, with cell `rm`. -/
def responder (ra : BitVec 7) (rm : Memory) : Environment := .reference ⟨ra, rm, 0#8, .off, 0, 0#8⟩

/-- The next state of an outcome, the given state where there is none. -/
def nextOr (s : State) (o : Host.Outcome State Fault Refusal) : State :=
  match o with
  | .next t    => t
  | .fault _   => s
  | .refused _ => s

/-- The state after one step. -/
def after (s : State) : State := nextOr s (step s)

/-- The result word in the slot of requester 0, if one is ready. -/
def answerOf (s : State) : Option (BitVec 32) :=
  match s.slots with
  | sl :: _ => if sl.rspValid && !sl.reqValid then some sl.rspRw else none
  | []      => none

/-- Bits from digits. -/
def bits (ns : List Nat) : List Level := ns.map (· == 1)

/-- One `DLY`. -/
def wait : List Token := [.t]

/-- `WRBYTE` as the spec writes it, from its bits in sending order and the level sampled (R104). -/
def byteLine (ns : List Nat) (r : Level) : List Token :=
  (bits ns).flatMap (fun b => [.d b, .c high, .t, .c low]) ++ [.d high, .c high, .t, .g r, .c low]

/-- `RDBYTE` as the spec writes it, from its samples in order (R105). -/
def readLine (ns : List Nat) : List Token := .d high :: (bits ns).flatMap (fun r => [.t, .c high, .g r, .c low])

/-- `NOACK` as the spec writes it (R103). -/
def noackLine : List Token := [.t, .d high, .c high, .t, .c low, .t, .d low, .t]


/-- The line operations of `START`, as the spec writes them (R101). -/
def startLine : List Token := [.d high, .c high, .t, .d low, .t, .c low]

/-- The line operations of `STOP`, as the spec writes them (R102). -/
def stopLine : List Token := [.d low, .t, .c high, .t, .d high, .t]

/-- An environment that presents the given digits, oldest first. -/
def presents (ns : List Nat) : Environment := .levels (bits ns)

/-! ### WellFormed: each check refuses an ill-formed term (R80) -/

theorem test_wellFormed_refuses_device :
    (AsmLine.wrreg 0x80 0 0).wellFormed = false ∧ (AsmLine.rdreg 0x80 0).wellFormed = false ∧
    (AsmLine.wrreg 0x80 0 0).assemble = none := by decide

theorem test_wellFormed_refuses_register :
    (AsmLine.wrreg 0 0x100 0).wellFormed = false ∧ (AsmLine.rdreg 0 0x100).wellFormed = false := by decide

theorem test_wellFormed_refuses_value : (AsmLine.wrreg 0 0 0x100).wellFormed = false := by decide

theorem test_wellFormed_accepts_the_largest :
    (AsmLine.wrreg 0x7F 0xFF 0xFF).assemble = some (.wrreg 0x7F#7 0xFF#8 0xFF#8) ∧
    (AsmLine.rdreg 0x7F 0xFF).assemble = some (.rdreg 0x7F#7 0xFF#8) ∧ AsmLine.init.assemble = some .init := by decide

theorem test_program_refuses_lower_layers :
    programWellFormed [.init, .wrreg 0#7 0#8 0#8, .rdreg 0#7 0#8] = true ∧
    programWellFormed [.init, .start] = false ∧ programWellFormed [.getd] = false := by decide

/-! ### Decode: words written out from the encodings (30_encoding.md; vectors E1 to E9) -/

theorem test_decode_wrreg :
    decodeCommand 0b00010000001000010000000111111111#32 = .ok (.wrreg 0x21#7 0x01#8 0xFF#8) ∧
    decodeCommand 0x10000000#32 = .ok (.wrreg 0#7 0#8 0#8) ∧
    decodeCommand 0x107FFFFF#32 = .ok (.wrreg 0x7F#7 0xFF#8 0xFF#8) ∧
    decodeCommand 0x1055AA5A#32 = .ok (.wrreg 0x55#7 0xAA#8 0x5A#8) := ⟨rfl, rfl, rfl, rfl⟩

theorem test_decode_rdreg :
    decodeCommand 0b00100000001000010000000100000000#32 = .ok (.rdreg 0x21#7 0x01#8) ∧
    decodeCommand 0x207FFF00#32 = .ok (.rdreg 0x7F#7 0xFF#8) ∧
    decodeCommand 0x20000000#32 = .ok (.rdreg 0#7 0#8) := ⟨rfl, rfl, rfl⟩

theorem test_decode_init : decodeCommand 0b00110000000000000000000000000000#32 = .ok .init := rfl

theorem test_decode_illegal :
    decodeCommand 0x00210100#32 = .error .illegalCommand ∧ decodeCommand 0x40000000#32 = .error .illegalCommand ∧
    decodeCommand 0xFFFFFFFF#32 = .error .illegalCommand ∧ decodeCommand 0x18000000#32 = .error .illegalCommand ∧
    decodeCommand 0x112101FF#32 = .error .illegalCommand ∧ decodeCommand 0x20210101#32 = .error .illegalCommand ∧
    decodeCommand 0x2FFFFF00#32 = .error .illegalCommand ∧ decodeCommand 0x30000001#32 = .error .illegalCommand ∧
    decodeCommand 0x30210000#32 = .error .illegalCommand := ⟨rfl, rfl, rfl, rfl, rfl, rfl, rfl, rfl, rfl⟩

theorem test_decode_primitives :
    decodePrim 0b001#3 = .ok .start ∧ decodePrim 0b010#3 = .ok .stop ∧ decodePrim 0b011#3 = .ok .noack ∧
    decodePrim 0b100#3 = .ok .wrbyte ∧ decodePrim 0b101#3 = .ok .rdbyte ∧
    decodePrim 0b000#3 = .error .noPrimitive := ⟨rfl, rfl, rfl, rfl, rfl, rfl⟩

theorem test_decode_line_operations :
    [0b011#3, 0b001#3, 0b110#3, 0b010#3, 0b110#3, 0b000#3].map decodeLop =
      [.ok (.setd high), .ok (.setc high), .ok .dly, .ok (.setd low), .ok .dly, .ok (.setc low)] ∧
    decodeLop 0b100#3 = .ok .getd := ⟨rfl, rfl⟩

theorem test_decode_table_words :
    decodeTableWord 32 0x102101FF = some (.wrreg 0x21#7 0x01#8 0xFF#8) ∧
    decodeTableWord 32 0x20210100 = some (.rdreg 0x21#7 0x01#8) ∧ decodeTableWord 32 0x30000000 = some .init ∧
    decodeTableWord 8 1 = some .start ∧ decodeTableWord 8 2 = some .stop ∧ decodeTableWord 8 3 = some .noack ∧
    decodeTableWord 8 4 = some .wrbyte ∧ decodeTableWord 8 5 = some .rdbyte ∧
    decodeTableWord 8 0 = some (.setc low) ∧ decodeTableWord 8 6 = some .dly :=
  ⟨rfl, rfl, rfl, rfl, rfl, rfl, rfl, rfl, rfl, rfl⟩

/-- Vector E10. -/
theorem test_address_bytes :
    addressByte 0x21#7 Config.writeBit = 0x42#8 ∧ addressByte 0x21#7 Config.readBit = 0x43#8 ∧
    addressByte 0x7F#7 Config.writeBit = 0xFE#8 ∧ addressByte 0x55#7 Config.readBit = 0xAB#8 := by decide

/-! ### One instruction, one step (vectors of 95_test_vectors.md) -/

/-- T1 and X1: the 125 tokens, the result, and what the responder holds at the end. -/
theorem test_wrreg_stores :
    (after (posted 0x102101FF#32 (responder 0x21#7 []) [.command 0])).trace =
      List.flatten [startLine, byteLine [0, 1, 0, 0, 0, 0, 1, 0] low, wait, byteLine [0, 0, 0, 0, 0, 0, 0, 1] low, wait,
        byteLine [1, 1, 1, 1, 1, 1, 1, 1] low, stopLine] ∧
    answerOf (after (posted 0x102101FF#32 (responder 0x21#7 []) [.command 0])) = some 0x00000000#32 ∧
    (after (posted 0x102101FF#32 (responder 0x21#7 []) [.command 0])).memory = [(1, 0xFF#8)] := by decide +kernel

/-- T1b and T2: the result as a function of the acknowledgments. -/
theorem test_wrreg_acknowledgments :
    answerOf (after (posted 0x102101FF#32 (presents [0, 1, 0]) [.command 0])) = some 0x00000000#32 ∧
    answerOf (after (posted 0x102101FF#32 (presents [0, 0, 1]) [.command 0])) = some 0x00001000#32 ∧
    answerOf (after (posted 0x102101FF#32 (presents [1]) [.command 0])) = some 0x00000100#32 ∧
    (after (posted 0x102101FF#32 (presents [1]) [.command 0])).trace =
      List.flatten [startLine, byteLine [0, 1, 0, 0, 0, 0, 1, 0] high, stopLine] := by decide +kernel

/-- T3 with the data samples of `0xA5`. -/
theorem test_rdreg_reads :
    (after (posted 0x20210100#32 (presents [0, 0, 0, 1, 0, 1, 0, 0, 1, 0, 1]) [.command 0])).trace =
      List.flatten [startLine, byteLine [0, 1, 0, 0, 0, 0, 1, 0] low, wait, byteLine [0, 0, 0, 0, 0, 0, 0, 1] low, wait,
        stopLine, wait, startLine, byteLine [0, 1, 0, 0, 0, 0, 1, 1] low, wait, readLine [1, 0, 1, 0, 0, 1, 0, 1],
        noackLine, stopLine] ∧
    answerOf (after (posted 0x20210100#32 (presents [0, 0, 0, 1, 0, 1, 0, 0, 1, 0, 1]) [.command 0])) =
      some 0x000000A5#32 := by decide +kernel

/-- T4 and P5: the second address byte not acknowledged. -/
theorem test_rdreg_second_address :
    (after { posted 0x20210100#32 (presents [0, 0, 1]) [.command 0] with res := 0xFF#8 }).trace.length = 138 ∧
    answerOf (after { posted 0x20210100#32 (presents [0, 0, 1]) [.command 0] with res := 0xFF#8 }) =
      some 0x00000100#32 ∧
    (after { posted 0x20210100#32 (presents [0, 0, 1]) [.command 0] with res := 0xFF#8 }).res = 0xFF#8 := by
  decide +kernel

/-- B1b and B4. -/
theorem test_init_registers :
    (after { posted 0x30000000#32 .absent [.command 0] with regd := false, cfgTimeout := 250#32 }).timeout = 250#32 ∧
    (after { posted 0x30000000#32 .absent [.command 0] with regd := false, cfgTimeout := 250#32 }).regd = true ∧
    answerOf (after (posted 0x30000000#32 .absent [.command 0])) = some 0x00000300#32 ∧
    (after (posted 0x30000000#32 .absent [.command 0])).timeout = 1000#32 := by decide +kernel

/-- S1, and S2's patterns. -/
theorem test_start :
    (after (writing ⟨.wrreg, 0, .start, 0⟩ high high 0#8 .absent [.primitive])).trace = startLine ∧
    (after (writing ⟨.wrreg, 0, .start, 0⟩ high high 0#8 .absent [.primitive])).seq = ⟨.wrreg, 1, .wrbyte, 0⟩ ∧
    (after (writing ⟨.wrreg, 0, .start, 0⟩ high high 0#8 .absent [.primitive])).sr = 0x42#8 ∧
    patterns startLine high low = [.stop, .start] := by decide +kernel

/-- S5 and S6. -/
theorem test_stop :
    (after (writing ⟨.wrreg, 6, .stop, 0⟩ low high 0#8 .absent [.primitive])).trace = stopLine ∧
    (after (writing ⟨.wrreg, 6, .stop, 0⟩ low high 0#8 .absent [.primitive])).linesIdle = true ∧
    patterns stopLine low high = [.stop] ∧ patterns stopLine low low = [.stop] := by decide +kernel

/-- S7. -/
theorem test_noack :
    (after (reading ⟨.rdreg, 11, .noack, 0⟩ low high 0#8 .absent [.primitive])).trace = noackLine ∧
    (after (reading ⟨.rdreg, 11, .noack, 0⟩ low high 0#8 .absent [.primitive])).sdaOut = low := by decide +kernel

/-- W3. -/
theorem test_wrbyte_most_significant_first :
    (after (writing ⟨.wrreg, 5, .wrbyte, 0⟩ low high 0xA5#8 (presents [0]) [.primitive])).trace =
      byteLine [1, 0, 1, 0, 0, 1, 0, 1] low := by decide +kernel

/-- W2: the sampled level is `ACK`. -/
theorem test_wrbyte_acknowledgment :
    (after (writing ⟨.wrreg, 3, .wrbyte, 0⟩ low high 0xFF#8 (presents [1]) [.primitive])).ack = true := by decide +kernel

/-- B10 and B13. -/
theorem test_rdbyte :
    (after (reading ⟨.rdreg, 10, .rdbyte, 0⟩ low high 0x3C#8 (presents [1, 0, 1, 0, 0, 1, 0, 1]) [.primitive])).res = 0xA5#8 ∧
    (after (reading ⟨.rdreg, 10, .rdbyte, 0⟩ low high 0xFF#8 (presents [1, 0, 0, 0, 0, 0, 0, 0]) [.primitive])).sr = 0x80#8 := by
  decide +kernel

/-- L1 to L3. -/
theorem test_setc :
    (nextOr State.reset (exec (.setc low) State.reset)).sclOut = low ∧
    (nextOr State.reset (exec (.setc low) State.reset)).sdaOut = high ∧
    (nextOr State.reset (exec (.setc low) { State.reset with sclOut := low })).trace = [.c low] := by decide

/-- L4 to L9. -/
theorem test_setd :
    (nextOr State.reset (exec (.setd low) State.reset)).sdaOut = low ∧
    patternOf (.setd low) high high = some .start ∧ patternOf (.setd high) high low = some .stop ∧
    patternOf (.setd low) low high = none ∧ patternOf (.setd high) low low = none ∧
    patternOf (.setd high) high high = none ∧ patternOf (.setd low) high low = none := by decide

/-- L10 and L11. -/
theorem test_getd :
    (nextOr State.reset (exec .getd { State.reset with env := presents [0] })).trace = [.g low] ∧
    (nextOr State.reset (exec .getd { State.reset with env := presents [1] })).trace = [.g high] := by decide

/-- L12. -/
theorem test_dly :
    (nextOr State.reset (exec .dly State.reset)).trace = [.t] ∧
    (nextOr State.reset (exec .dly State.reset)).sclOut = high := by decide

/-- A program word placed at reset is what the next step runs (log 13). -/
theorem test_withFetchWord :
    (after (State.reset.withFetchWord 32 0x30000000)).regd = true ∧
    (after (State.reset.withFetchWord 8 1)).trace = startLine ∧
    (after (State.reset.withFetchWord 8 0)).trace = [.c low] := by decide +kernel

/-- Z1. -/
theorem test_reset :
    State.reset.sclOut = high ∧ State.reset.sdaOut = high ∧ State.reset.seq = Seq.idle ∧ State.reset.lock = false ∧
    State.reset.regd = false ∧ State.reset.timeout = 0#32 ∧ State.reset.trace = [] := by decide

/-- The canonical form refuses a cell that holds 0, and addresses that do not rise. -/
theorem test_memory_form :
    Memory.wf [(1, 0#8)] = false ∧ Memory.wf [(2, 5#8), (1, 5#8)] = false ∧ Memory.wf [(1, 5#8), (1, 6#8)] = false ∧
    Memory.wf [(1, 5#8), (255, 6#8)] = true ∧ Memory.write [(1, 5#8)] 1 0#8 = [] := by decide

/-! ### Witnesses: states and operands that meet the hypotheses of the obligations -/

/-- A code word that decodes. -/
theorem witness_EncodeOfDecodeIsTheCodeWord : decode (.cmd 0x207FFF00#32) = .ok (.rdreg 0x7F#7 0xFF#8) := rfl

/-- Every row selects some word, and its nearest neighbour not. -/
theorem witness_RowsSelectExactlyTheirInstruction :
    ⟨"RDREG", .cmd 0x20000000#32, .cmd 0xFF8000FF#32⟩ ∈ opcodeTable ∧
    (OpcodeRow.mk "RDREG" (.cmd 0x20000000#32) (.cmd 0xFF8000FF#32)).selects (.cmd 0x20210100#32) = true ∧
    (OpcodeRow.mk "RDREG" (.cmd 0x20000000#32) (.cmd 0xFF8000FF#32)).selects (.cmd 0x20210101#32) = false := by decide

/-- A pending illegal word (B6), and a position at which a line operation comes next. -/
theorem witness_IllegalCommandWordsAreRefused :
    (posted 0x00000000#32 .absent []).slot? 0 = some ⟨true, 0x00000000#32, false, 0#32⟩ ∧
    (Slot.mk true 0x00000000#32 false 0#32).pending = true ∧
    decode (.cmd 0x00000000#32) = .error .illegalCommand ∧ decode (.cmd 0x10800000#32) = .error .illegalCommand ∧
    (writing ⟨.wrreg, 2, .nothing, 0⟩ low high 0#8 .absent []).lopWord = some 0b110#3 :=
  ⟨rfl, rfl, rfl, rfl, rfl⟩

/-- Entry levels of `STOP`, `NOACK` and `WRBYTE`. -/
theorem witness_entries_with_the_clock_low :
    (writing ⟨.wrreg, 6, .stop, 0⟩ low high 0#8 .absent []).sclOut = low ∧
    (reading ⟨.rdreg, 11, .noack, 0⟩ low high 0#8 .absent []).sclOut = low ∧
    (reading ⟨.rdreg, 11, .noack, 0⟩ low high 0#8 .absent []).sdaOut = high ∧
    (writing ⟨.wrreg, 1, .wrbyte, 0⟩ low low 0x42#8 .absent []).sclOut = low := ⟨rfl, rfl, rfl, rfl⟩

/-- `WrregWritesOneRegister`, `TransactionsHaveFixedSizes`, `EveryFrameHasOneStartAndOneStop`,
`TransactionsReadNothingLeftByAnother` and `SmallStepsRunThePseudocode`: registered, unlocked, lines idle; and both
levels of the first acknowledgment. -/
theorem witness_WrregWritesOneRegister :
    (posted 0x102101FF#32 .absent []).regd = true ∧ (posted 0x102101FF#32 .absent []).lock = false ∧
    (posted 0x102101FF#32 .absent []).sclOut = high ∧ (posted 0x102101FF#32 .absent []).sdaOut = high ∧
    presentedAfter (posted 0x102101FF#32 .absent [])
      (startTrace ++ wrbyteLead (addressByte 0x21#7 Config.writeBit)) = high ∧
    presentedAfter (posted 0x102101FF#32 (responder 0x21#7 []) [])
      (startTrace ++ wrbyteLead (addressByte 0x21#7 Config.writeBit)) = low := by decide +kernel

/-- The second address byte of a read acknowledged by the responder, and not acknowledged by a device that drops off
the bus between the frames (P5). -/
theorem witness_RdregReadsOneRegister :
    (posted 0x20210100#32 .absent []).regd = true ∧ (posted 0x20210100#32 .absent []).lock = false ∧
    presentedAfter (posted 0x20210100#32 (presents [0, 0, 1]) [])
      (startTrace ++ wrbyteLead (addressByte 0x21#7 Config.writeBit)) = low ∧
    presentedAfter (posted 0x20210100#32 (presents [0, 0, 1]) [])
      (startTrace ++ wrbyteTrace (addressByte 0x21#7 Config.writeBit) low ++ wait ++ wrbyteTrace 0x01#8 low ++ wait ++
        stopTrace ++ wait ++ startTrace ++ wrbyteLead (addressByte 0x21#7 Config.readBit)) = high ∧
    presentedAfter (posted 0x20210100#32 (responder 0x21#7 []) [])
      (startTrace ++ wrbyteTrace (addressByte 0x21#7 Config.writeBit) low ++ wait ++ wrbyteTrace 0x01#8 low ++ wait ++
        stopTrace ++ wait ++ startTrace ++ wrbyteLead (addressByte 0x21#7 Config.readBit)) = low := by decide +kernel

/-- Environments that list the levels of a write and of a read. -/
theorem witness_ResultIsAFunctionOfTheSamples :
    (posted 0x102101FF#32 (presents [0, 1, 1]) []).env = .levels (false :: true :: true :: []) ∧
    (posted 0x20210100#32 (presents [0, 0, 0, 1, 0, 1, 0, 0, 1, 0, 1]) []).env =
      .levels (false :: false :: false :: true :: false :: true :: false :: false :: true :: false :: true :: []) ∧
    (posted 0x102101FF#32 (presents [0, 1, 1]) []).slot? 0 = some ⟨true, 0x102101FF#32, false, 0#32⟩ := ⟨rfl, rfl, rfl⟩

/-- An unregistered instance, and a locked one (B2, B7). -/
theorem witness_TransactionsAreRefusedOrWait :
    State.reset.regd = false ∧ (writing ⟨.wrreg, 0, .start, 0⟩ high high 0#8 .absent []).regd = true ∧
    (writing ⟨.wrreg, 0, .start, 0⟩ high high 0#8 .absent []).lock = true := ⟨rfl, rfl, rfl⟩

/-- `INIT` on an unregistered and on a registered instance, with a zero timeout and another. -/
theorem witness_InitRegistersOnce :
    ({ posted 0x30000000#32 .absent [] with regd := false } : State).regd = false ∧
    (posted 0x30000000#32 .absent []).regd = true ∧ (posted 0x30000000#32 .absent []).cfgTimeout = 0#32 ∧
    ({ posted 0x30000000#32 .absent [] with cfgTimeout := 1#32 } : State).cfgTimeout ≠ 0#32 := by decide

/-- A pending command of each kind, a slot with none, and pending transaction commands on an unregistered instance (B2,
B3) and on a locked one (B7). -/
theorem witness_PostedCommandsAreClassified :
    ({ posted 0x102101FF#32 .absent [] with regd := false } : State).slot? 0 =
      some ⟨true, 0x102101FF#32, false, 0#32⟩ ∧
    ({ posted 0x20210100#32 .absent [] with regd := false } : State).slot? 0 =
      some ⟨true, 0x20210100#32, false, 0#32⟩ ∧
    ({ posted 0x20210100#32 .absent [] with regd := false } : State).regd = false ∧
    (Slot.mk true 0x20210100#32 false 0#32).pending = true ∧
    (writing ⟨.wrreg, 2, .nothing, 0⟩ low high 0#8 .absent []).lock = true ∧
    (posted 0x30000000#32 .absent []).slot? 0 = some ⟨true, 0x30000000#32, false, 0#32⟩ ∧
    (Slot.mk true 0x30000000#32 false 0#32).pending = true ∧ decodeCommand 0x30000000#32 = .ok .init ∧
    decodeCommand 0x00000000#32 = .error .illegalCommand ∧
    decodeCommand 0x107FFFFF#32 = .ok (.wrreg 0x7F#7 0xFF#8 0xFF#8) ∧
    decodeCommand 0x20000000#32 = .ok (.rdreg 0#7 0#8) ∧
    (posted 0x30000000#32 .absent []).slot? 1 = some Slot.reset ∧ Slot.reset.pending = false :=
  ⟨rfl, rfl, rfl, rfl, rfl, rfl, rfl, rfl, rfl, rfl, rfl, rfl, rfl⟩

/-- Posted words of both rows on a registered instance, unlocked and locked. -/
theorem witness_AcquireLatchesThePostedCommand :
    (posted 0x102101FF#32 .absent []).slot? 0 = some ⟨true, 0x102101FF#32, false, 0#32⟩ ∧
    (0x102101FF#32 &&& 0xFF800000#32 = 0x10000000#32) ∧ (0x20210100#32 &&& 0xFF8000FF#32 = 0x20000000#32) ∧
    (posted 0x20210100#32 .absent []).lock = false ∧
    (reading ⟨.rdreg, 0, .start, 0⟩ high high 0#8 .absent []).lock = true := by decide

/-- Both release positions, with the lock held. -/
theorem witness_ReleaseDeliversTheResult :
    (writing ⟨.wrreg, 7, .nothing, 0⟩ high high 0#8 .absent []).lock = true ∧
    (writing ⟨.wrreg, 7, .nothing, 0⟩ high high 0#8 .absent []).seq = ⟨.wrreg, 7, .nothing, 0⟩ ∧
    (reading ⟨.rdreg, 13, .nothing, 0⟩ high high 0#8 .absent []).seq = ⟨.rdreg, 13, .nothing, 0⟩ := ⟨rfl, rfl, rfl⟩

/-- A free slot, a posted one and one with a waiting result. -/
theorem witness_RequestersPostAndTake :
    (posted 0x30000000#32 .absent []).slot? 1 = some ⟨false, 0#32, false, 0#32⟩ ∧
    (posted 0x30000000#32 .absent []).slot? 0 = some ⟨true, 0x30000000#32, false, 0#32⟩ ∧
    (after (posted 0x30000000#32 .absent [.command 0])).slot? 0 = some ⟨false, 0x30000000#32, true, 0x00000300#32⟩ := by
  decide +kernel

/-- A step of each layer that meets its instruction. -/
theorem witness_StepRunsTheDecodedInstruction :
    (posted 0x102101FF#32 .absent [.command 0]).nextMove = .command 0 ∧
    (Slot.mk true 0x102101FF#32 false 0#32).pending = true ∧
    (writing ⟨.wrreg, 6, .stop, 0⟩ low high 0#8 .absent [.primitive]).nextMove = .primitive ∧
    (writing ⟨.wrreg, 6, .stop, 0⟩ low high 0#8 .absent [.primitive]).primitiveAt = some .stop ∧
    decode (.prim PrimSel.stop.code) = .ok .stop ∧
    (writing ⟨.wrreg, 2, .nothing, 0⟩ low high 0#8 .absent [.engine]).nextMove = .engine ∧
    (writing ⟨.wrreg, 2, .nothing, 0⟩ low high 0#8 .absent [.engine]).lopWord = some 0b110#3 ∧
    decode (.lop 0b110#3) = .ok .dly := ⟨rfl, rfl, rfl, rfl, rfl, rfl, rfl, rfl⟩

/-- The last operation of an address byte, acknowledged and not, of both commands and both frames (T6, steps 43 and
132); the sample and the last operation of the other bytes. -/
theorem witness_branches :
    (writing ⟨.wrreg, 1, .wrbyte, 36⟩ high high 0x42#8 .absent []).lock = true ∧
    (writing ⟨.wrreg, 1, .wrbyte, 36⟩ high high 0x42#8 .absent []).seq = ⟨.wrreg, 1, .wrbyte, 36⟩ ∧
    (writing ⟨.wrreg, 1, .wrbyte, 36⟩ high high 0x42#8 .absent []).ack = low ∧
    ({ writing ⟨.wrreg, 1, .wrbyte, 36⟩ high high 0x42#8 .absent [] with ack := high } : State).ack = high ∧
    (after (reading ⟨.rdreg, 8, .wrbyte, 36⟩ high high 0x43#8 .absent [.engine])).seq = ⟨.rdreg, 9, .nothing, 0⟩ ∧
    (after { reading ⟨.rdreg, 8, .wrbyte, 36⟩ high high 0x43#8 .absent [.engine] with ack := high }).seq =
      ⟨.rdreg, 12, .stop, 0⟩ ∧
    (after { reading ⟨.rdreg, 1, .wrbyte, 36⟩ high high 0x42#8 .absent [.engine] with ack := high }).fail = true ∧
    (after (writing ⟨.wrreg, 5, .wrbyte, 35⟩ high high 0xFF#8 (presents [1]) [.engine])).ack = high ∧
    (after { writing ⟨.wrreg, 5, .wrbyte, 36⟩ high high 0xFF#8 .absent [.engine] with ack := high }).wstat = true := by
  decide +kernel

/-- A primitive to start, and, for `HolderReachesRelease`, a position in the middle of one with the lock held. -/
theorem witness_PrimitiveIsItsLineOperations :
    (reading ⟨.rdreg, 10, .rdbyte, 0⟩ low high 0#8 .absent []).primitiveAt = some .rdbyte ∧
    (reading ⟨.rdreg, 10, .rdbyte, 17⟩ low high 0#8 .absent []).seqLegal = true ∧
    (reading ⟨.rdreg, 10, .rdbyte, 17⟩ low high 0#8 .absent []).lock = true := by decide +kernel

/-- The invariants hold in a state with a command in flight and a step to make. -/
theorem witness_invariants :
    (writing ⟨.wrreg, 1, .wrbyte, 5⟩ low high 0x42#8 .absent [.engine]).EngineInv ∧
    (writing ⟨.wrreg, 1, .wrbyte, 5⟩ low high 0x42#8 .absent [.engine]).OwnerInv ∧
    (writing ⟨.wrreg, 1, .wrbyte, 5⟩ low high 0x42#8 .absent [.engine]).SlotsInv ∧
    (writing ⟨.wrreg, 1, .wrbyte, 5⟩ low high 0x42#8 .absent [.engine]).ResultsInv ∧
    (writing ⟨.wrreg, 1, .wrbyte, 5⟩ low high 0x42#8 (responder 0x21#7 [(1, 5#8)]) []).MemoryInv ∧
    (∃ t, step (writing ⟨.wrreg, 1, .wrbyte, 5⟩ low high 0x42#8 .absent [.engine]) = .next t) := by
  refine ⟨⟨by decide, by decide, by decide, by decide⟩, fun _ => ⟨rfl, _, rfl, rfl, rfl, .inl ⟨rfl, rfl, rfl⟩⟩, ?_, ?_,
    (by rfl : Memory.wf _ = true), ⟨_, rfl⟩⟩
  · unfold State.SlotsInv; decide
  · unfold State.ResultsInv; decide

/-- The premise of `RegisteredTimeoutIsNotZero`, and a registered instance. -/
theorem witness_RegisteredTimeoutIsNotZero :
    (posted 0x30000000#32 .absent [.command 0]).regd = true ∧ (posted 0x30000000#32 .absent [.command 0]).timeout ≠ 0#32 := by
  decide

/-- The account of a requester with a command in flight, and of one that has been answered and has not taken. -/
theorem witness_EveryStepKeepsTheAccounts :
    ({ writing ⟨.wrreg, 7, .nothing, 0⟩ high high 0#8 .absent [.engine] with posted := [(0, 0x102101FF#32)] }
      : State).AccountInv ∧
    (after { writing ⟨.wrreg, 7, .nothing, 0⟩ high high 0#8 .absent [.engine] with
      posted := [(0, 0x102101FF#32)] }).AccountInv := by
  refine ⟨⟨?_, fun _ => ⟨rfl, _, rfl, rfl, rfl, .inl ⟨rfl, rfl, rfl⟩⟩, ?_⟩, ?_, fun h => ?_, ?_⟩
  · unfold State.SlotsInv; decide
  · intro p sl h
    match p, h with
    | 0, rfl => rfl
    | 1, rfl => rfl
  · unfold State.SlotsInv; decide +kernel
  · exact absurd h (by decide +kernel)
  · intro p sl h
    match p, h with
    | 0, rfl => rfl
    | 1, rfl => rfl

/-- B2 posted, answered and taken: over for that program, and not for one with a command more, nor before the take. -/
theorem witness_ARunIsOverWhenEveryProgramIsDone :
    (after { State.reset with
      slots := [⟨false, 0x20210100#32, true, 0x00000200#32⟩], posted := [(0, 0x20210100#32)], moves := [.take 0] }).runOver
      [[0x20210100#32]] = true ∧
    (after { State.reset with
      slots := [⟨false, 0x20210100#32, true, 0x00000200#32⟩], posted := [(0, 0x20210100#32)], moves := [.take 0] }).runOver
      [[0x20210100#32, 0x30000000#32]] = false ∧
    ({ State.reset with
      slots := [⟨false, 0x20210100#32, true, 0x00000200#32⟩], posted := [(0, 0x20210100#32)] } : State).runOver
      [[0x20210100#32]] = false ∧
    ({ State.reset with slots := [Slot.reset] } : State).runOver [[0x30000000#32]] = false ∧
    ({ State.reset with slots := [Slot.reset] } : State).EngineInv := by
  refine ⟨by decide +kernel, by decide +kernel, by decide +kernel, by decide +kernel, by decide, by decide, by decide,
    by decide⟩

/-- A sample that comes next, an entry with the clock low, and a `SETD` inside a byte. -/
theorem witness_SamplesAndEntriesFindTheRightLevels :
    (writing ⟨.wrreg, 1, .wrbyte, 35⟩ high high 0x42#8 .absent []).EngineInv ∧
    engineNext ⟨.wrreg, 1, .wrbyte, 35⟩ 0x42#8 = some (.perform .getd) ∧
    (writing ⟨.wrreg, 6, .stop, 0⟩ low high 0x42#8 .absent []).EngineInv ∧
    (writing ⟨.wrreg, 1, .wrbyte, 4⟩ low low 0x42#8 .absent []).EngineInv ∧
    engineNext ⟨.wrreg, 1, .wrbyte, 4⟩ 0x42#8 = some (.perform (.setd high)) :=
  ⟨⟨by decide, by decide, by decide, by decide⟩, rfl, ⟨by decide, by decide, by decide, by decide⟩,
    ⟨by decide, by decide, by decide, by decide⟩, rfl⟩

/-- Each change of the lifecycle happens: `INIT`, acquire, release. -/
theorem witness_LifecycleMovesOnlyForward :
    (after { posted 0x30000000#32 .absent [.command 0] with regd := false }).lifecycle = .registeredIdle ∧
    (after (posted 0x102101FF#32 .absent [.grant 0])).lifecycle = .registeredBusy ∧
    (after (writing ⟨.wrreg, 7, .nothing, 0⟩ high high 0#8 .absent [.engine])).lifecycle = .registeredIdle ∧
    (writing ⟨.wrreg, 7, .nothing, 0⟩ high high 0#8 .absent [.engine]).EngineInv :=
  ⟨by decide +kernel, by decide +kernel, by decide +kernel, ⟨by decide, by decide, by decide, by decide⟩⟩

/-- The holder's step adds to the trace, and so does a whole command. -/
theorem witness_OnlyTheLockHolderDrivesTheLines :
    (after (writing ⟨.wrreg, 2, .nothing, 0⟩ low high 0#8 .absent [.engine])).trace ≠
      (writing ⟨.wrreg, 2, .nothing, 0⟩ low high 0#8 .absent [.engine]).trace ∧
    (after (posted 0x102101FF#32 .absent [.command 0])).trace ≠ (posted 0x102101FF#32 .absent [.command 0]).trace := by
  decide +kernel

/-- Another requester posts while the lock is held. -/
theorem witness_TransactionsNeverInterleave :
    (writing ⟨.wrreg, 1, .wrbyte, 5⟩ low high 0x42#8 .absent [.post 1 0x30000000#32]).OwnerInv ∧
    (writing ⟨.wrreg, 1, .wrbyte, 5⟩ low high 0x42#8 .absent [.post 1 0x30000000#32]).lock = true ∧
    (writing ⟨.wrreg, 1, .wrbyte, 5⟩ low high 0x42#8 .absent [.post 1 0x30000000#32]).nextMove = .post 1 0x30000000#32 ∧
    (after (writing ⟨.wrreg, 1, .wrbyte, 5⟩ low high 0x42#8 .absent [.post 1 0x30000000#32])).slots =
      [⟨true, 0x102101FF#32, false, 0#32⟩, ⟨true, 0x30000000#32, false, 0#32⟩] :=
  ⟨fun _ => ⟨rfl, _, rfl, rfl, rfl, .inl ⟨rfl, rfl, rfl⟩⟩, rfl, rfl, by decide +kernel⟩

/-- A system of two, one of which steps. -/
theorem witness_InstancesAreIndependent :
    ∃ sys', System.stepAt 1 [posted 0x30000000#32 .absent [], posted 0x30000000#32 .absent [.grant 0]] = .next sys' :=
  ⟨_, rfl⟩

/-- `WrregStoresInTheResponder`, `RdregLoadsFromTheResponder`, `ReadReturnsTheLastWrite` and `AbsentDeviceIsNotFound`: the
reference responder with a register set, at the address and at another, and the absent one, lines idle. -/
theorem witness_responder :
    (posted 0x10210105#32 (responder 0x21#7 [(1, 9#8)]) []).regd = true ∧
    (posted 0x10210105#32 (responder 0x21#7 [(1, 9#8)]) []).lock = false ∧
    (posted 0x10210105#32 (responder 0x21#7 [(1, 9#8)]) []).linesIdle = true ∧
    (posted 0x10210105#32 (responder 0x21#7 [(1, 9#8)]) []).env = .reference ⟨0x21#7, [(1, 9#8)], 0#8, .off, 0, 0#8⟩ ∧
    (posted 0x10210105#32 (responder 0x21#7 [(1, 9#8)]) []).MemoryInv ∧
    (posted 0x10210105#32 (responder 0x21#7 [(1, 9#8)]) []).slot? 0 = some ⟨true, 0x10210105#32, false, 0#32⟩ ∧
    (posted 0x10210105#32 (responder 0x30#7 [(1, 9#8)]) []).env = .reference ⟨0x30#7, [(1, 9#8)], 0#8, .off, 0, 0#8⟩ ∧
    (0x30#7 ≠ 0x21#7) ∧ (posted 0x10210105#32 .absent []).env = .absent :=
  ⟨rfl, rfl, rfl, rfl, (by rfl : Memory.wf _ = true), rfl, rfl, by decide, rfl⟩

end Sys2Proof.Tests
end

section
/-!
SUPPORT. Illegal codes (R79): the masks of R75 as conditions on the fields of the command word, the refusal of a pending
illegal word, and the codes of `PRIM` and `LOP` that name nothing.
-/

namespace Sys2Proof

/-! ### The fields of a command word -/

/-- The bits of R74 from the top: `OP`, `Z`, `DEV`, `REG`, `DAT`. -/
theorem fields_append (w : BitVec 32) :
    w.extractLsb' 28 4 ++ (w.extractLsb' 23 5 ++ (fieldDev w ++ (fieldReg w ++ fieldDat w))) = w := by
  simp (disch := decide) only [fieldDev, fieldReg, fieldDat, BitVec.extractLsb'_append_extractLsb'_eq_extractLsb']
  exact BitVec.extractLsb'_eq_self

/-- Two words are equal when their fields are. -/
theorem word_eq_iff_fields {x y : BitVec 32} :
    x = y ↔ x.extractLsb' 28 4 = y.extractLsb' 28 4 ∧ x.extractLsb' 23 5 = y.extractLsb' 23 5 ∧
      fieldDev x = fieldDev y ∧ fieldReg x = fieldReg y ∧ fieldDat x = fieldDat y := by
  refine ⟨by rintro rfl; simp, fun ⟨hop, hz, hdev, hreg, hdat⟩ => ?_⟩
  rw [← fields_append x, ← fields_append y, hop, hz, hdev, hreg, hdat]

/-- Two words are equal when `OP` and bits 27:0 are. -/
theorem word_eq_iff_op_rest {x y : BitVec 32} :
    x = y ↔ x.extractLsb' 28 4 = y.extractLsb' 28 4 ∧ x.extractLsb' 0 28 = y.extractLsb' 0 28 := by
  refine ⟨by rintro rfl; simp, fun ⟨hop, hrest⟩ => ?_⟩
  rw [← BitVec.extractLsb'_append_extractLsb' (w := 4) (len := 28) (x := x), hop, hrest,
    BitVec.extractLsb'_append_extractLsb' (w := 4) (len := 28) (x := y)]

/-! ### The rows of R75 as conditions on the fields -/

/-- A field whose mask is all ones is compared whole. -/
theorem and_eq_self_of_allOnes {n : Nat} {x m : BitVec n} (hm : m = BitVec.allOnes n) : x &&& m = x := by
  rw [hm, BitVec.and_allOnes]

/-- The row of `WRREG`: `OP = 1` and `Z = 0`. -/
theorem wrreg_mask_iff (w : BitVec 32) :
    w &&& 0xFF800000#32 = 0x10000000#32 ↔ w.extractLsb' 28 4 = 0x1#4 ∧ w.extractLsb' 23 5 = 0#5 := by
  simp (disch := decide) [word_eq_iff_fields, fieldDev, fieldReg, fieldDat, BitVec.extractLsb'_and,
    and_eq_self_of_allOnes]

/-- The row of `RDREG`: `OP = 2`, `Z = 0` and `DAT = 0`. -/
theorem rdreg_mask_iff (w : BitVec 32) :
    w &&& 0xFF8000FF#32 = 0x20000000#32 ↔
      w.extractLsb' 28 4 = 0x2#4 ∧ w.extractLsb' 23 5 = 0#5 ∧ fieldDat w = 0#8 := by
  simp (disch := decide) [word_eq_iff_fields, fieldDev, fieldReg, fieldDat, BitVec.extractLsb'_and,
    and_eq_self_of_allOnes]

/-- The row of `INIT`: `OP = 3` and nothing else. -/
theorem init_mask_iff (w : BitVec 32) :
    w &&& 0xFFFFFFFF#32 = 0x30000000#32 ↔ w.extractLsb' 28 4 = 0x3#4 ∧ w.extractLsb' 0 28 = 0#28 := by
  simp (disch := decide) [word_eq_iff_op_rest, and_eq_self_of_allOnes]

/-- A command word is illegal when it is in no row (R79). -/
theorem decodeCommand_illegal_iff (w : BitVec 32) :
    decodeCommand w = .error .illegalCommand ↔
      ¬ (w.extractLsb' 28 4 = 0x1#4 ∧ w.extractLsb' 23 5 = 0#5) ∧
      ¬ (w.extractLsb' 28 4 = 0x2#4 ∧ w.extractLsb' 23 5 = 0#5 ∧ fieldDat w = 0#8) ∧
      ¬ (w.extractLsb' 28 4 = 0x3#4 ∧ w.extractLsb' 0 28 = 0#28) := by
  simp only [decodeCommand, wrreg_mask_iff, rdreg_mask_iff, init_mask_iff]
  split_ifs <;> simp [*]

/-- The operation codes of no row are `0x0` and those from `0x4` on. -/
theorem op_unassigned_iff :
    ∀ op : BitVec 4, (op = 0x0#4 ∨ 0x4#4 ≤ op) ↔ op ≠ 0x1#4 ∧ op ≠ 0x2#4 ∧ op ≠ 0x3#4 := by
  decide

/-- The four cases of R79 are the words of no row, by the operation code. -/
theorem decodeCommand_illegal_iff_cases (w : BitVec 32) :
    decodeCommand w = .error .illegalCommand ↔
      (w.extractLsb' 28 4 = 0x0#4 ∨ 0x4#4 ≤ w.extractLsb' 28 4) ∨
      ((w.extractLsb' 28 4 = 0x1#4 ∨ w.extractLsb' 28 4 = 0x2#4) ∧ w.extractLsb' 23 5 ≠ 0#5) ∨
      (w.extractLsb' 28 4 = 0x2#4 ∧ fieldDat w ≠ 0#8) ∨
      (w.extractLsb' 28 4 = 0x3#4 ∧ w.extractLsb' 0 28 ≠ 0#28) := by
  rw [decodeCommand_illegal_iff, op_unassigned_iff]
  by_cases h1 : w.extractLsb' 28 4 = 0x1#4
  · simp [h1]
  by_cases h2 : w.extractLsb' 28 4 = 0x2#4
  · simp [h2, imp_iff_not_or]
  by_cases h3 : w.extractLsb' 28 4 = 0x3#4
  · simp [h3]
  · simp [h1, h2, h3]

/-! ### The codes that cannot arise -/

/-- A code that decodes to no line operation is the code of none. -/
theorem LineOp.code_ne_of_decode_error {op : LineOp} {c : BitVec 3} {e : DecodeError}
    (h : decode (.lop c) = .error e) : op.code ≠ c := by
  rintro rfl
  simp at h

/-- No primitive selector has a code of no primitive other than `NONE`. -/
theorem PrimSel.code_ne_unassigned (p : PrimSel) : p.code ≠ 0b110#3 ∧ p.code ≠ 0b111#3 := by
  cases p <;> decide

/-- No line operation has the code `0b101` or `0b111`. -/
theorem LineOp.code_ne_unassigned (op : LineOp) : op.code ≠ 0b101#3 ∧ op.code ≠ 0b111#3 :=
  ⟨code_ne_of_decode_error rfl, code_ne_of_decode_error rfl⟩

end Sys2Proof

namespace Sys2Proof.Machine

/-- A word on port `lop_word` is the code of a line operation. -/
theorem State.exists_op_of_lopWord {s : State} {c : BitVec 3} (h : s.lopWord = some c) :
    ∃ op : LineOp, op.code = c := by
  unfold State.lopWord at h
  split at h
  · split at h
    case h_1 op _ => exact ⟨op, Option.some.inj h⟩
    case h_2 => cases h
  · cases h

/-- A pending word that decodes to nothing is refused, whatever a command would go on with (R79, R154). -/
theorem State.answer_of_decode_error {s : State} {p : Nat} {sl : Slot} {e : DecodeError}
    (run : Instr → State → Host.Outcome State Fault Refusal) (hs : s.slot? p = some sl) (hp : sl.pending = true)
    (hd : decode (.cmd sl.reqCw) = .error e) : s.answer p run = .next (s.refuse p .illegalCommand) := by
  simp [State.answer, hs, hp, hd]

/-- Code 4 stands in the requester's slot and nothing else changes (R76, R154). -/
theorem State.refuse_illegalCommand (s : State) (p : Nat) :
    s.refuse p .illegalCommand = { s with slots := answered p 0x00000400#32 s.slots } := rfl

end Sys2Proof.Machine

open Sys2Proof Sys2Proof.Machine

/-- Settles O5: the rows of R75 read by fields, the common refusal of both moves, and every line operation's code
decoding to that operation. -/
theorem illegalCommandWordsAreRefused : Obligations.IllegalCommandWordsAreRefused := by
  refine ⟨decodeCommand_illegal_iff_cases, fun s p sl hs hp hd => ?_, rfl, rfl, rfl, rfl,
    PrimSel.code_ne_unassigned, LineOp.code_ne_unassigned, fun s c hc => ?_⟩
  · rw [← s.refuse_illegalCommand p]
    exact ⟨State.answer_of_decode_error grantInstr hs hp hd, State.answer_of_decode_error exec hs hp hd⟩
  · obtain ⟨op, rfl⟩ := State.exists_op_of_lopWord hc
    exact op.code_ne_unassigned

end

section
/-!
SUPPORT. Line operations (R90, R91, R93, R94): their words, the next state of each as a full record, when a `SETD` is a
pattern (R12), and that the environment is unmoved by `DLY` and answers `GETD` from its list of levels.
-/

namespace Sys2Proof

/-! ### Words -/

/-- The code of a line operation's instruction is its word on port `lop_word` (R78). -/
theorem encode_lineOp (op : LineOp) : encode op.instr = .lop op.code := by
  cases op <;> rfl

theorem LineOp.code_setc (l : Level) : (LineOp.setc l).code = if l then 0b001#3 else 0b000#3 := by
  cases l <;> rfl

theorem LineOp.code_setd (l : Level) : (LineOp.setd l).code = if l then 0b011#3 else 0b010#3 := by
  cases l <;> rfl

theorem encode_setc (l : Level) : encode (.setc l) = .lop (if l then 0b001#3 else 0b000#3) := by
  rw [← LineOp.code_setc]
  exact encode_lineOp (.setc l)

theorem encode_setd (l : Level) : encode (.setd l) = .lop (if l then 0b011#3 else 0b010#3) := by
  rw [← LineOp.code_setd]
  exact encode_lineOp (.setd l)

end Sys2Proof

namespace Sys2Proof.Machine

/-! ### Patterns -/

/-- A `SETD` is a Start exactly when it lowers the data line, and a Stop exactly when it raises it, with the clock high
(R12). -/
theorem patternOf_setd (l scl sda : Level) :
    patternOf (.setd l) scl sda =
      if scl = high ∧ sda = high ∧ l = low then some .start
      else if scl = high ∧ sda = low ∧ l = high then some .stop
      else none := by
  cases scl with
  | false => simp [patternOf]
  | true => cases sda <;> cases l <;> rfl

/-! ### The environment -/

@[simp] theorem patternOf_dly (scl sda : Level) : patternOf .dly scl sda = none := rfl

/-- A delay is no edge and no pattern, so the responder does not move (R66, R94). -/
@[simp] theorem Responder.observe_dly (r : Responder) (scl sda : Level) : r.observe .dly scl sda = r := by
  simp [Responder.observe]

/-- No environment moves on a delay (R94). -/
@[simp] theorem Environment.observe_dly (e : Environment) (scl sda : Level) : e.observe .dly scl sda = e := by
  cases e with
  | levels ls => rfl
  | reference r => exact congrArg Environment.reference (r.observe_dly scl sda)
  | absent => rfl

/-- A sample uses up the first of the listed levels (R65, R93). -/
@[simp] theorem Environment.observe_getd_levels (ls : List Level) (scl sda : Level) :
    (Environment.levels ls).observe .getd scl sda = .levels ls.tail := rfl

/-- The first of the listed levels is the one presented (R65, R93). -/
theorem State.sdaIn_of_levels {s : State} {r : Level} {ls : List Level} (h : s.env = .levels (r :: ls)) :
    s.sdaIn = r := by
  simp [State.sdaIn, h, Environment.presents]

/-! ### The next state -/

/-- Executing a line operation's instruction performs the operation (R90 to R94). -/
theorem exec_lineOp (op : LineOp) (s : State) : exec op.instr s = .next (s.perform op) := by
  cases op <;> rfl

theorem exec_setc (l : Level) (s : State) :
    exec (.setc l) s = .next { s with
      sclOut := l
      env := s.env.observe (.setc l) s.sclOut s.sdaOut
      trace := s.trace ++ [.c l] } :=
  exec_lineOp (.setc l) s

theorem exec_setd (l : Level) (s : State) :
    exec (.setd l) s = .next { s with
      sdaOut := l
      env := s.env.observe (.setd l) s.sclOut s.sdaOut
      trace := s.trace ++ [.d l] } :=
  exec_lineOp (.setd l) s

theorem exec_getd (s : State) :
    exec .getd s = .next { s with
      env := s.env.observe .getd s.sclOut s.sdaOut
      trace := s.trace ++ [.g s.sdaIn] } :=
  exec_lineOp .getd s

/-- From listed levels `GETD` records the first and leaves the rest (R65, R93). -/
theorem exec_getd_of_levels {s : State} {r : Level} {ls : List Level} (h : s.env = .levels (r :: ls)) :
    exec .getd s = .next { s with env := .levels ls, trace := s.trace ++ [.g r] } := by
  rw [exec_getd, State.sdaIn_of_levels h, h, Environment.observe_getd_levels, List.tail_cons]

/-- The environment's part of `perform` drops out, since it does not move on a delay (R94). -/
theorem exec_dly (s : State) : exec .dly s = .next { s with trace := s.trace ++ [.t] } := by
  have hperform : exec .dly s = .next { s with
      env := s.env.observe .dly s.sclOut s.sdaOut
      trace := s.trace ++ [.t] } := exec_lineOp .dly s
  rw [hperform, Environment.observe_dly]

end Sys2Proof.Machine

open Sys2Proof Sys2Proof.Machine

/-- Settles O8: the word and the next state of `SETC`. -/
theorem setcCommandsTheClockLine : Obligations.SetcCommandsTheClockLine :=
  fun l s => ⟨encode_setc l, exec_setc l s⟩

/-- Settles O9: the word and the next state of `SETD`, and its patterns by the levels and the operand. -/
theorem setdCommandsTheDataLine : Obligations.SetdCommandsTheDataLine :=
  fun l s => ⟨encode_setd l, exec_setd l s, patternOf_setd l s.sclOut s.sdaOut⟩

/-- Settles O10: the word and the next state of `GETD`, and either level from a list that presents it. -/
theorem getdSamplesThePresentedLevel : Obligations.GetdSamplesThePresentedLevel :=
  fun s => ⟨encode_lineOp .getd, exec_getd s, fun r ls =>
    exec_getd_of_levels (s := { s with env := .levels (r :: ls) }) rfl⟩

/-- Settles O11: no environment moves on a delay, so the token is the whole change. -/
theorem dlyOnlyRecordsItself : Obligations.DlyOnlyRecordsItself :=
  fun s => ⟨encode_lineOp .dly, exec_dly s⟩

end

section
/-!
SUPPORT. Bit signaling (R101 to R105): each primitive as one trace of line operations, beside what it does with its samples;
the levels it leaves; and the patterns it makes from its entry levels (R12).
-/

namespace Sys2Proof

/-! ### Words -/

/-- The code of a primitive is the select code of its selector (R77). -/
theorem encode_primitive {p : PrimSel} {i : Instr} (h : p.instr = some i) : encode i = .prim p.code := by
  cases p <;> cases h <;> rfl

end Sys2Proof

namespace Sys2Proof.Machine

/-! ### Levels and patterns -/

/-- A trace that leaves the levels `scl` and `sda`, as a full next state. -/
theorem State.after_of_levels {s : State} {tr : List Token} {scl sda : Level}
    (hscl : tr.foldl (fun l tok => sclAfter tok l) s.sclOut = scl)
    (hsda : tr.foldl (fun l tok => sdaAfter tok l) s.sdaOut = sda) :
    s.after tr = { s with
      sclOut := scl, sdaOut := sda
      env := watch tr s.sclOut s.sdaOut s.env
      trace := s.trace ++ tr } := by
  rw [← hscl, ← hsda]
  rfl

/-- With the clock low no operation is a pattern (R12). -/
@[simp] theorem patternOf_clock_low (op : LineOp) (sda : Level) : patternOf op low sda = none := by
  cases op with
  | setd l => simp [patternOf_setd]
  | _ => rfl

@[simp] theorem patternOf_setc (l scl sda : Level) : patternOf (.setc l) scl sda = none := rfl

@[simp] theorem patternOf_getd (scl sda : Level) : patternOf .getd scl sda = none := rfl

/-! ### `START`, `STOP` and `NOACK` -/

theorem State.runStart_eq_after (s : State) : s.runStart = s.after startTrace := by
  simp only [State.runStart, perform_setd_eq_after, perform_setc_eq_after, perform_dly_eq_after, after_after]
  rfl

theorem State.runStop_eq_after (s : State) : s.runStop = s.after stopTrace := by
  simp only [State.runStop, perform_setd_eq_after, perform_setc_eq_after, perform_dly_eq_after, after_after]
  rfl

theorem State.runNoack_eq_after (s : State) : s.runNoack = s.after noackTrace := by
  simp only [State.runNoack, perform_setd_eq_after, perform_setc_eq_after, perform_dly_eq_after, after_after]
  rfl

/-- The Start of `START` is made from any levels; only its first operation depends on them (R101). -/
theorem patterns_startTrace (scl sda : Level) :
    patterns startTrace scl sda = (patternOf (.setd high) scl sda).toList ++ [.start] := by
  simp [startTrace, patterns, tokenOp, sclAfter, sdaAfter, patternOf_setd]

/-- The first operation of `START` is a Stop exactly from levels (1,0), and never a Start (R101). -/
theorem patterns_startTrace_cases (scl sda : Level) :
    patterns startTrace scl sda = if scl = high ∧ sda = low then [.stop, .start] else [.start] := by
  rw [patterns_startTrace, patternOf_setd]
  by_cases h : scl = high ∧ sda = low <;> simp [h]

/-- Entered with the clock low, `STOP` lowers the data line unseen and raises it with the clock high (R102). -/
theorem patterns_stopTrace (sda : Level) : patterns stopTrace low sda = [.stop] := by
  simp [stopTrace, patterns, tokenOp, sclAfter, sdaAfter, patternOf_setd]

/-- Entered with the clock low, `NOACK` moves the data line with the clock low only (R103). -/
theorem patterns_noackTrace (sda : Level) : patterns noackTrace low sda = [] := by
  simp [noackTrace, patterns, tokenOp, sclAfter, sdaAfter]

/-! ### `WRBYTE` -/

theorem State.sendCell_eq_after (s : State) (j : Nat) :
    s.sendCell j = s.after (sendTrace (cellBit s.sr j)) := by
  simp only [State.sendCell, perform_setd_eq_after, perform_setc_eq_after, perform_dly_eq_after, after_after]
  rfl

/-- The cells of a `WRBYTE` in turn, all with bits of the one `SR` (R104). -/
theorem State.foldl_sendCell_eq_after (js : List Nat) (s : State) :
    js.foldl State.sendCell s = s.after (js.flatMap fun j => sendTrace (cellBit s.sr j)) := by
  induction js generalizing s with
  | nil => simp
  | cons j js ih =>
    rw [List.foldl_cons, sendCell_eq_after, ih, after_after, List.flatMap_cons]
    rfl

/-- The operations of `WRBYTE v` up to its sample: cells 0 to 7, then the released data line and the raised clock. -/
theorem wrbyteLead_eq_flatMap (v : BitVec 8) :
    wrbyteLead v =
      [0, 1, 2, 3, 4, 5, 6, 7].flatMap (fun j => sendTrace (cellBit v j)) ++ [.d high, .c high, .t] := by
  simp [wrbyteLead, cellBit]

/-- The acknowledgment slot stores the level presented once the clock is up (R30, R104). -/
theorem State.ackSlot_eq_after (s : State) :
    s.ackSlot = (s.after ([.d high, .c high, .t] ++ [.g (presentedAfter s [.d high, .c high, .t]), .c low])).setAck
      (presentedAfter s [.d high, .c high, .t]) := by
  simp only [State.ackSlot, perform_setd_eq_after, perform_setc_eq_after, perform_dly_eq_after, perform_getd_eq_after,
    setAck_after, after_after, sdaIn_after]
  rfl

/-- `WRBYTE` is its trace with the level presented in the acknowledgment slot, and that level in `ACK` (R104). -/
theorem State.runWrbyte_eq_after (s : State) :
    s.runWrbyte = (s.after (wrbyteTrace s.sr (presentedAfter s (wrbyteLead s.sr)))).setAck
      (presentedAfter s (wrbyteLead s.sr)) := by
  rw [State.runWrbyte, foldl_sendCell_eq_after, ackSlot_eq_after, after_after, presentedAfter_after, wrbyteTrace,
    ← List.append_assoc, ← wrbyteLead_eq_flatMap]

theorem sclAfter_wrbyteTrace (v : BitVec 8) (r scl : Level) :
    (wrbyteTrace v r).foldl (fun l tok => sclAfter tok l) scl = low := by
  simp [wrbyteTrace, sclAfter]

theorem sdaAfter_wrbyteTrace (v : BitVec 8) (r sda : Level) :
    (wrbyteTrace v r).foldl (fun l tok => sdaAfter tok l) sda = high := by
  simp [wrbyteTrace, wrbyteLead, sdaAfter]

/-- A cell entered with the clock low moves the data line before it raises the clock, and lowers the clock again, whatever
the bit (R104). -/
theorem patterns_sendTrace_append (b sda : Level) (tr : List Token) :
    patterns (sendTrace b ++ tr) low sda = patterns tr low b := by
  simp [sendTrace, patterns, tokenOp, sclAfter, sdaAfter]

/-- Entered with the clock low, `WRBYTE` moves the data line with the clock low only (R41, R104). -/
theorem patterns_wrbyteTrace (v : BitVec 8) (r sda : Level) : patterns (wrbyteTrace v r) low sda = [] := by
  simp only [wrbyteTrace, wrbyteLead, List.append_assoc, patterns_sendTrace_append]
  simp [patterns, tokenOp, sclAfter]

/-! ### `RDBYTE` -/

/-- Bit 0 of an accumulation is the sample and the others move up by one (R106). -/
theorem getLsbD_shiftIn (v : BitVec 8) (r : Level) {i : Nat} (hi : i < 8) :
    (shiftIn v r).getLsbD i = if i = 0 then r else v.getLsbD (i - 1) := by
  cases i with
  | zero => simp [shiftIn]
  | succ i => simp [shiftIn, hi, BitVec.getLsbD_eq_getElem (show i < 8 by omega)]

/-- Of at most eight samples accumulated, the last is bit 0 and the first the highest, whatever the register held (R106). -/
theorem getLsbD_foldl_shiftIn (v : BitVec 8) (rs : List Level) (hlen : rs.length ≤ 8) {j : Nat} (hj : j < rs.length) :
    (rs.foldl shiftIn v).getLsbD (rs.length - 1 - j) = rs[j] := by
  induction rs using List.reverseRecOn generalizing j with
  | nil => simp at hj
  | append_singleton rs r ih =>
    simp only [List.length_append, List.length_singleton] at hlen hj
    simp only [List.foldl_append, List.foldl_cons, List.foldl_nil, List.length_append, List.length_singleton]
    rw [getLsbD_shiftIn _ _ (by omega)]
    by_cases hlast : j = rs.length
    · simp [hlast]
    · have hj' : j < rs.length := by omega
      rw [if_neg (by omega), List.getElem_append_left hj', ← ih (by omega) hj']
      congr 1
      omega

/-- A cell of `RDBYTE` accumulates the level presented once the clock is up (R105). -/
theorem State.recvCell_eq_after (s : State) :
    s.recvCell = (s.after (recvTrace (presentedAfter s [.t, .c high]))).loadSr
      (shiftIn s.sr (presentedAfter s [.t, .c high])) := by
  simp only [State.recvCell, perform_setc_eq_after, perform_dly_eq_after, perform_getd_eq_after, loadSr_after,
    after_after, sdaIn_after]
  rfl

/-- The cells of `RDBYTE` sample one level each, the one presented after the cells before it, and accumulate them in that
order (R105). -/
theorem State.recvCells_eq_after (n : Nat) (s : State) :
    ∃ rs : List Level, rs.length = n ∧
      (∀ (j : Nat) (hj : j < rs.length),
        rs[j] = presentedAfter s ((rs.take j).flatMap recvTrace ++ [.t, .c high])) ∧
      State.recvCells n s = (s.after (rs.flatMap recvTrace)).loadSr (rs.foldl shiftIn s.sr) := by
  induction n generalizing s with
  | zero => exact ⟨[], rfl, by simp, by simp [State.recvCells, State.loadSr]⟩
  | succ n ih =>
    obtain ⟨rs, hlen, hrs, hrun⟩ := ih s.recvCell
    refine ⟨presentedAfter s [.t, .c high] :: rs, by simp [hlen], fun j hj => ?_, ?_⟩
    · cases j with
      | zero => rfl
      | succ j =>
        rw [List.getElem_cons_succ, hrs j (Nat.lt_of_succ_lt_succ hj), recvCell_eq_after, presentedAfter_loadSr,
          presentedAfter_after, List.take_succ_cons, List.flatMap_cons, List.append_assoc]
    · rw [State.recvCells, hrun, recvCell_eq_after, loadSr_after, after_after]
      rfl

/-- Eight samples are the bits of the byte they accumulate to, bit 7 first, whatever the register held (R105, R106). -/
theorem samples_eq_bits (v : BitVec 8) {rs : List Level} (hlen : rs.length = 8) :
    rs = (List.range 8).map fun i => (rs.foldl shiftIn v).getLsbD (7 - i) := by
  refine List.ext_getElem (by simp [hlen]) fun j hj _ => ?_
  have hbit := getLsbD_foldl_shiftIn v rs hlen.le hj
  simpa [hlen] using hbit.symm

/-- The operations before the sample of cell `j`, by the list of the bits sampled. -/
theorem rdbyteLead_eq_take (v : BitVec 8) {j : Nat} (hj : j < 8) :
    rdbyteLead v j = [.d high] ++
      ((((List.range 8).map fun i => v.getLsbD (7 - i)).take j).flatMap recvTrace ++ [.t, .c high]) := by
  rw [rdbyteLead, ← List.map_take, List.take_range, Nat.min_eq_left hj.le, List.flatMap_map, List.append_assoc]

/-- `RDBYTE` is its trace with the byte whose bits are the levels presented, bit 7 first, and that byte in `SR` (R105). -/
theorem State.runRdbyte_eq_after (s : State) :
    ∃ v : BitVec 8, (∀ j < 8, v.getLsbD (7 - j) = presentedAfter s (rdbyteLead v j)) ∧
      s.runRdbyte = (s.after (rdbyteTrace v)).loadSr v := by
  obtain ⟨rs, hlen, hrs, hrun⟩ := State.recvCells_eq_after 8 ((s.perform (.setd high)).loadSr 0#8)
  have hbits := samples_eq_bits 0#8 hlen
  refine ⟨rs.foldl shiftIn 0#8, fun j hj => ?_, ?_⟩
  · calc (rs.foldl shiftIn 0#8).getLsbD (7 - j)
      _ = rs[j] := by simpa [hlen] using getLsbD_foldl_shiftIn 0#8 rs hlen.le (hlen ▸ hj)
      _ = presentedAfter s ([.d high] ++ ((rs.take j).flatMap recvTrace ++ [.t, .c high])) := by
        rw [hrs, presentedAfter_loadSr, perform_setd_eq_after, presentedAfter_after]
      _ = presentedAfter s (rdbyteLead (rs.foldl shiftIn 0#8) j) := by
        rw [rdbyteLead_eq_take _ hj, ← hbits]
  · have htrace : rdbyteTrace (rs.foldl shiftIn 0#8) = [.d high] ++ rs.flatMap recvTrace :=
      (congrArg (fun bits => [Token.d high] ++ bits.flatMap recvTrace) hbits).symm
    rw [State.runRdbyte, hrun, perform_setd_eq_after, loadSr_after, after_after, htrace]
    rfl

theorem sclAfter_rdbyteTrace (v : BitVec 8) (scl : Level) :
    (rdbyteTrace v).foldl (fun l tok => sclAfter tok l) scl = low := by
  simp [rdbyteTrace, recvTrace, sclAfter]

theorem sdaAfter_rdbyteTrace (v : BitVec 8) (sda : Level) :
    (rdbyteTrace v).foldl (fun l tok => sdaAfter tok l) sda = high := by
  simp [rdbyteTrace, recvTrace, sdaAfter]

/-! ### The next state -/

/-- `START` (R101). -/
theorem exec_start (s : State) :
    exec .start s = .next { s with
      sclOut := low, sdaOut := low
      env := watch startTrace s.sclOut s.sdaOut s.env
      trace := s.trace ++ startTrace } :=
  congrArg Host.Outcome.next (s.runStart_eq_after.trans (State.after_of_levels rfl rfl))

/-- `STOP` (R102). -/
theorem exec_stop (s : State) :
    exec .stop s = .next { s with
      sclOut := high, sdaOut := high
      env := watch stopTrace s.sclOut s.sdaOut s.env
      trace := s.trace ++ stopTrace } :=
  congrArg Host.Outcome.next (s.runStop_eq_after.trans (State.after_of_levels rfl rfl))

/-- `NOACK` (R103). -/
theorem exec_noack (s : State) :
    exec .noack s = .next { s with
      sclOut := low, sdaOut := low
      env := watch noackTrace s.sclOut s.sdaOut s.env
      trace := s.trace ++ noackTrace } :=
  congrArg Host.Outcome.next (s.runNoack_eq_after.trans (State.after_of_levels rfl rfl))

/-- `WRBYTE` with its byte in `SR` (R104). -/
theorem exec_wrbyte (s : State) :
    exec .wrbyte s = .next { s with
      sclOut := low, sdaOut := high
      ack := presentedAfter s (wrbyteLead s.sr)
      env := watch (wrbyteTrace s.sr (presentedAfter s (wrbyteLead s.sr))) s.sclOut s.sdaOut s.env
      trace := s.trace ++ wrbyteTrace s.sr (presentedAfter s (wrbyteLead s.sr)) } := by
  refine congrArg Host.Outcome.next (s.runWrbyte_eq_after.trans ?_)
  rw [State.after_of_levels (sclAfter_wrbyteTrace ..) (sdaAfter_wrbyteTrace ..)]
  rfl

/-- `RDBYTE` (R105). -/
theorem exec_rdbyte (s : State) :
    ∃ v : BitVec 8, (∀ j < 8, v.getLsbD (7 - j) = presentedAfter s (rdbyteLead v j)) ∧
      exec .rdbyte s = .next { s with
        sr := v
        sclOut := low, sdaOut := high
        env := watch (rdbyteTrace v) s.sclOut s.sdaOut s.env
        trace := s.trace ++ rdbyteTrace v } := by
  obtain ⟨v, hbits, hrun⟩ := s.runRdbyte_eq_after
  refine ⟨v, hbits, congrArg Host.Outcome.next (hrun.trans ?_)⟩
  rw [State.after_of_levels (sclAfter_rdbyteTrace ..) (sdaAfter_rdbyteTrace ..)]
  rfl

end Sys2Proof.Machine

open Sys2Proof Sys2Proof.Machine

/-- Settles O12: `START` as one trace; its Start is made from any levels, and the Stop before it only from (1,0). -/
theorem startMakesTheStartPattern : Obligations.StartMakesTheStartPattern :=
  fun s => ⟨encode_primitive (p := .start) rfl, exec_start s, patterns_startTrace_cases s.sclOut s.sdaOut⟩

/-- Settles O13: `STOP` as one trace; only its last `SETD` happens with the clock high. -/
theorem stopLeavesTheLinesIdle : Obligations.StopLeavesTheLinesIdle :=
  fun s => ⟨encode_primitive (p := .stop) rfl, exec_stop s, fun hscl => hscl ▸ patterns_stopTrace s.sdaOut⟩

/-- Settles O14: `NOACK` as one trace, whose `SETD`s all happen with the clock low. -/
theorem noackPulsesTheClockOnce : Obligations.NoackPulsesTheClockOnce :=
  fun s => ⟨encode_primitive (p := .noack) rfl, exec_noack s, fun hscl _ => hscl ▸ patterns_noackTrace s.sdaOut⟩

/-- Settles O15: the cells of `WRBYTE` by induction on their list, then its acknowledgment slot; entered with the clock low
every `SETD` happens with the clock low, whatever the bits. -/
theorem wrbyteSendsEightBitsAndSamplesTheAcknowledgment :
    Obligations.WrbyteSendsEightBitsAndSamplesTheAcknowledgment :=
  fun s => ⟨encode_primitive (p := .wrbyte) rfl, exec_wrbyte s, fun hscl r =>
    hscl ▸ patterns_wrbyteTrace s.sr r s.sdaOut⟩

/-- Settles O16: the cells of `RDBYTE` by induction on their number, and the samples as the bits of what they
accumulate to. -/
theorem rdbyteAssemblesEightSamples : Obligations.RdbyteAssemblesEightSamples :=
  fun s => ⟨encode_primitive (p := .rdbyte) rfl, exec_rdbyte s⟩

end

section
/-!
SUPPORT. The register transactions (R120, R121): each path as one trace of line operations beside its writes of the data
registers and flags, and what the release makes of it (R143).
-/

namespace Sys2Proof

/-! ### Words -/

theorem encode_wrreg (dev : BitVec 7) (reg val : BitVec 8) :
    encode (.wrreg dev reg val) =
      .cmd (0x10000000#32 ||| dev.setWidth 32 <<< 16 ||| reg.setWidth 32 <<< 8 ||| val.setWidth 32) := rfl

/-- `DAT` of `RDREG` is 0 (R74). -/
theorem encode_rdreg (dev : BitVec 7) (reg : BitVec 8) :
    encode (.rdreg dev reg) = .cmd (0x20000000#32 ||| dev.setWidth 32 <<< 16 ||| reg.setWidth 32 <<< 8) :=
  congrArg CodeWord.cmd BitVec.or_zero

end Sys2Proof

namespace Sys2Proof.Machine

theorem resultWord_deviceNotFound : resultWord false .deviceNotFound 0#8 = 0x00000100#32 := rfl

theorem resultWord_written (w : Bool) :
    resultWord w .ok 0#8 = if w then 0x00001000#32 else 0x00000000#32 := by
  cases w <;> rfl

theorem resultWord_read (v : BitVec 8) : resultWord false .ok v = v.setWidth 32 :=
  BitVec.zero_or

/-! ### Lengths -/

@[simp] theorem length_startTrace : startTrace.length = 6 := rfl

@[simp] theorem length_stopTrace : stopTrace.length = 6 := rfl

@[simp] theorem length_noackTrace : noackTrace.length = 8 := rfl

@[simp] theorem length_wrbyteTrace (v : BitVec 8) (r : Level) : (wrbyteTrace v r).length = 37 := rfl

@[simp] theorem length_rdbyteTrace (v : BitVec 8) : (rdbyteTrace v).length = 33 := rfl

@[simp] theorem length_absentTrace (dev : BitVec 7) : (absentTrace dev).length = 49 := by
  simp [absentTrace]

@[simp] theorem length_writeTrace (dev : BitVec 7) (reg val : BitVec 8) (a2 a3 : Level) :
    (writeTrace dev reg val a2 a3).length = 125 := by
  simp [writeTrace]

@[simp] theorem length_selectTrace (dev : BitVec 7) (reg : BitVec 8) (a2 a3 : Level) :
    (selectTrace dev reg a2 a3).length = 132 := by
  simp [selectTrace]

@[simp] theorem length_unreadTrace (dev : BitVec 7) (reg : BitVec 8) (a2 : Level) :
    (unreadTrace dev reg a2).length = 138 := by
  simp [unreadTrace]

@[simp] theorem length_readTrace (dev : BitVec 7) (reg v : BitVec 8) (a2 : Level) :
    (readTrace dev reg v a2).length = 180 := by
  simp [readTrace]

/-! ### Along a transaction -/

/-- A state after the line operations `tr` of byte primitives that left the byte `v` in `SR` and the level `a` in `ACK`: the
form of every state between the first address byte and the release, apart from `RES` and the flags. -/
def State.afterBytes (s : State) (tr : List Token) (v : BitVec 8) (a : Level) : State :=
  ((s.after tr).loadSr v).setAck a

section
variable (s : State) (tr : List Token) (v w : BitVec 8) (a b : Level)

@[simp] theorem State.afterBytes_dev : (s.afterBytes tr v a).dev = s.dev := rfl

@[simp] theorem State.afterBytes_reg : (s.afterBytes tr v a).reg = s.reg := rfl

@[simp] theorem State.afterBytes_dat : (s.afterBytes tr v a).dat = s.dat := rfl

theorem State.after_afterBytes (more : List Token) : (s.afterBytes tr v a).after more = s.afterBytes (tr ++ more) v a := by
  rw [State.afterBytes, setAck_after, loadSr_after, after_after]
  rfl

theorem State.delay_afterBytes : (s.afterBytes tr v a).perform .dly = s.afterBytes (tr ++ [.t]) v a := by
  rw [perform_dly_eq_after, after_afterBytes]

theorem State.runStart_afterBytes : (s.afterBytes tr v a).runStart = s.afterBytes (tr ++ startTrace) v a := by
  rw [runStart_eq_after, after_afterBytes]

theorem State.runStop_afterBytes : (s.afterBytes tr v a).runStop = s.afterBytes (tr ++ stopTrace) v a := by
  rw [runStop_eq_after, after_afterBytes]

theorem State.runNoack_afterBytes : (s.afterBytes tr v a).runNoack = s.afterBytes (tr ++ noackTrace) v a := by
  rw [runNoack_eq_after, after_afterBytes]

theorem presentedAfter_afterBytes (more : List Token) :
    presentedAfter (s.afterBytes tr v a) more = presentedAfter s (tr ++ more) := by
  rw [State.afterBytes, presentedAfter_setAck, presentedAfter_loadSr, presentedAfter_after]

variable {s tr v w a b}

/-- A byte sent after a trace (R104). -/
theorem State.callWrbyte_after (h : presentedAfter s (tr ++ wrbyteLead w) = b) :
    (s.after tr).callWrbyte w = s.afterBytes (tr ++ wrbyteTrace w b) w b := by
  rw [State.callWrbyte, runWrbyte_eq_after, loadSr_sr, presentedAfter_loadSr, presentedAfter_after, h, loadSr_after,
    after_after]
  rfl

/-- The next byte sent replaces what `SR` and `ACK` held (R104). -/
theorem State.callWrbyte_afterBytes (h : presentedAfter s (tr ++ wrbyteLead w) = b) :
    (s.afterBytes tr v a).callWrbyte w = s.afterBytes (tr ++ wrbyteTrace w b) w b := by
  rw [← callWrbyte_after h]
  rfl

/-- The byte received replaces what `SR` held and leaves `ACK` alone (R105). -/
theorem State.runRdbyte_afterBytes :
    ∃ u : BitVec 8, (∀ j < 8, u.getLsbD (7 - j) = presentedAfter s (tr ++ rdbyteLead u j)) ∧
      (s.afterBytes tr v a).runRdbyte = s.afterBytes (tr ++ rdbyteTrace u) u a := by
  obtain ⟨u, hbits, hrun⟩ := (s.afterBytes tr v a).runRdbyte_eq_after
  refine ⟨u, fun j hj => by rw [hbits j hj, presentedAfter_afterBytes], ?_⟩
  rw [hrun, after_afterBytes]
  rfl

/-- The branch after a byte not acknowledged (R122, R123). -/
theorem State.ifAcknowledged_afterBytes_high (body : State → State) :
    (s.afterBytes tr v high).ifAcknowledged body = (s.afterBytes tr v high).recordDeviceNotFound := rfl

/-- The branch after an acknowledged byte (R122, R123). -/
theorem State.ifAcknowledged_afterBytes_low (body : State → State) :
    (s.afterBytes tr v low).ifAcknowledged body = body (s.afterBytes tr v low) := rfl

/-! The operations of `STOP` and `NOACK` write neither `RES` nor a flag, so such a write may be placed after them. -/

theorem State.runStop_recordDeviceNotFound : s.recordDeviceNotFound.runStop = s.runStop.recordDeviceNotFound := rfl

theorem State.runStop_captureWriteStatus : s.captureWriteStatus.runStop = s.runStop.captureWriteStatus := rfl

theorem State.runStop_captureResult : s.captureResult.runStop = s.runStop.captureResult := rfl

theorem State.runNoack_captureResult : s.captureResult.runNoack = s.runNoack.captureResult := rfl

end

/-! ### The paths of the two commands -/

section
variable {s : State}

/-- The first address byte of either command not acknowledged: nothing but the final `STOP` follows (R120, R121). -/
theorem State.firstAddress_of_nack (body : State → State)
    (h1 : presentedAfter s (startTrace ++ wrbyteLead (addressByte s.dev Config.writeBit)) = high) :
    ((s.runStart.callWrbyte (addressByte s.dev Config.writeBit)).ifAcknowledged body).runStop =
      (s.afterBytes (absentTrace s.dev) (addressByte s.dev Config.writeBit) high).recordDeviceNotFound := by
  rw [runStart_eq_after, callWrbyte_after h1, ifAcknowledged_afterBytes_high, runStop_recordDeviceNotFound,
    runStop_afterBytes]
  rfl

/-- `WRREG` with its address byte not acknowledged (R120). -/
theorem State.writeTransaction_of_nack
    (h1 : presentedAfter s (startTrace ++ wrbyteLead (addressByte s.dev Config.writeBit)) = high) :
    s.writeTransaction =
      (s.afterBytes (absentTrace s.dev) (addressByte s.dev Config.writeBit) high).recordDeviceNotFound :=
  firstAddress_of_nack _ h1

/-- `RDREG` with its first address byte not acknowledged (R121). -/
theorem State.readTransaction_of_nack
    (h1 : presentedAfter s (startTrace ++ wrbyteLead (addressByte s.dev Config.writeBit)) = high) :
    s.readTransaction =
      (s.afterBytes (absentTrace s.dev) (addressByte s.dev Config.writeBit) high).recordDeviceNotFound :=
  firstAddress_of_nack _ h1

/-- The byte received stays in `SR` and becomes `RES`, and the not-acknowledge follows (R121). -/
theorem State.receiveData_afterBytes (s : State) (tr : List Token) (v : BitVec 8) (a : Level) :
    ∃ u : BitVec 8, (∀ j < 8, u.getLsbD (7 - j) = presentedAfter s (tr ++ [Token.t] ++ rdbyteLead u j)) ∧
      (s.afterBytes tr v a).receiveData =
        (s.afterBytes (tr ++ [Token.t] ++ rdbyteTrace u ++ noackTrace) u a).captureResult := by
  obtain ⟨u, hbits, hrun⟩ := State.runRdbyte_afterBytes (s := s) (tr := tr ++ [.t]) (v := v) (a := a)
  refine ⟨u, hbits, ?_⟩
  rw [State.receiveData, delay_afterBytes, hrun, runNoack_captureResult, runNoack_afterBytes]

variable {a2 a3 : Level}
  (h1 : presentedAfter s (startTrace ++ wrbyteLead (addressByte s.dev Config.writeBit)) = low)
  (h2 : presentedAfter s (startTrace ++ wrbyteTrace (addressByte s.dev Config.writeBit) low ++ [Token.t] ++
    wrbyteLead s.reg) = a2)
include h1 h2

/-- `WRREG` with its address byte acknowledged: the levels `a2` and `a3` are sampled and not looked at (R120, R124). -/
theorem State.writeTransaction_of_ack
    (h3 : presentedAfter s (startTrace ++ wrbyteTrace (addressByte s.dev Config.writeBit) low ++ [Token.t] ++
      wrbyteTrace s.reg a2 ++ [Token.t] ++ wrbyteLead s.dat) = a3) :
    s.writeTransaction = (s.afterBytes (writeTrace s.dev s.reg s.dat a2 a3) s.dat a3).captureWriteStatus := by
  rw [State.writeTransaction, runStart_eq_after, callWrbyte_after h1, ifAcknowledged_afterBytes_low,
    State.sendRegisterAndData, delay_afterBytes, afterBytes_reg, callWrbyte_afterBytes h2, delay_afterBytes,
    afterBytes_dat, callWrbyte_afterBytes h3, runStop_captureWriteStatus, runStop_afterBytes]
  rfl

variable
  (h3 : presentedAfter s (startTrace ++ wrbyteTrace (addressByte s.dev Config.writeBit) low ++ [Token.t] ++
    wrbyteTrace s.reg a2 ++ [Token.t] ++ stopTrace ++ [Token.t] ++ startTrace ++
    wrbyteLead (addressByte s.dev Config.readBit)) = a3)
include h3

/-- `RDREG` with its first address byte acknowledged, up to the branch on the second (R121, R126). -/
theorem State.readTransaction_of_ack :
    s.readTransaction =
      ((s.afterBytes (selectTrace s.dev s.reg a2 a3) (addressByte s.dev Config.readBit) a3).ifAcknowledged
        State.receiveData).runStop := by
  rw [State.readTransaction, runStart_eq_after, callWrbyte_after h1, ifAcknowledged_afterBytes_low,
    State.selectAndRead, delay_afterBytes, afterBytes_reg, callWrbyte_afterBytes h2, delay_afterBytes, runStop_afterBytes,
    delay_afterBytes, runStart_afterBytes, afterBytes_dev, callWrbyte_afterBytes h3]
  rfl

/-- `RDREG` with its second address byte not acknowledged: nothing is received (R121, R123). -/
theorem State.readTransaction_of_second_nack (ha3 : a3 = high) :
    s.readTransaction =
      (s.afterBytes (unreadTrace s.dev s.reg a2) (addressByte s.dev Config.readBit) high).recordDeviceNotFound := by
  rw [readTransaction_of_ack h1 h2 h3, ha3, ifAcknowledged_afterBytes_high, runStop_recordDeviceNotFound,
    runStop_afterBytes]
  rfl

/-- `RDREG` with both address bytes acknowledged: the byte of the second frame, bit 7 sampled first (R121). -/
theorem State.readTransaction_of_second_ack (ha3 : a3 = low) :
    ∃ v : BitVec 8,
      (∀ j < 8, v.getLsbD (7 - j) =
        presentedAfter s (selectTrace s.dev s.reg a2 low ++ [Token.t] ++ rdbyteLead v j)) ∧
      s.readTransaction = (s.afterBytes (readTrace s.dev s.reg v a2) v low).captureResult := by
  obtain ⟨v, hbits, hrun⟩ := State.receiveData_afterBytes s (selectTrace s.dev s.reg a2 low)
    (addressByte s.dev Config.readBit) low
  refine ⟨v, hbits, ?_⟩
  rw [readTransaction_of_ack h1 h2 h3, ha3, ifAcknowledged_afterBytes_low, hrun, runStop_captureResult, runStop_afterBytes]
  rfl

end

/-! ### Acceptance and release -/

/-- Registered and with the lock free, the command runs from acquire to release (R142, R143). -/
theorem exec_wrreg_of_free {s : State} (dev : BitVec 7) (reg val : BitVec 8) (hr : s.regd = true) (hl : s.lock = false) :
    exec (.wrreg dev reg val) s = .next (s.acquire s.issuer .wrreg dev reg val).writeTransaction.release := by
  simp [exec, execWrreg, State.withLock, hr, hl]

theorem exec_rdreg_of_free {s : State} (dev : BitVec 7) (reg : BitVec 8) (hr : s.regd = true) (hl : s.lock = false) :
    exec (.rdreg dev reg) s = .next (s.acquire s.issuer .rdreg dev reg 0#8).readTransaction.release := by
  simp [exec, execRdreg, State.withLock, hr, hl]

/-- A recorded failure gives no data, whatever `RES` holds (R143, R151). -/
theorem State.releaseWord_recordDeviceNotFound {s : State} (hw : s.wstat = false) :
    s.recordDeviceNotFound.releaseWord = 0x00000100#32 := by
  simp [State.releaseWord, hw, resultWord_deviceNotFound]

section
variable (s : State) (k : CmdK) (dev : BitVec 7) (reg dat : BitVec 8) (tr : List Token) (v : BitVec 8) (a : Level)

/-- A transaction that ends with `STOP` leaves the lines idle (R127). -/
theorem State.acquire_afterBytes_stop :
    (s.acquire s.issuer k dev reg dat).afterBytes (tr ++ stopTrace) v a =
      { s.acquire s.issuer k dev reg dat with
        sclOut := high, sdaOut := high, sr := v, ack := a
        env := watch (tr ++ stopTrace) s.sclOut s.sdaOut s.env
        trace := s.trace ++ (tr ++ stopTrace) } := by
  rw [State.afterBytes, State.after_of_levels (scl := high) (sda := high) (by simp [stopTrace, sclAfter])
    (by simp [stopTrace, sdaAfter])]
  rfl

/-- The release of either command after a recorded failure (R143, R151). -/
theorem State.release_recordDeviceNotFound :
    ((s.acquire s.issuer k dev reg dat).afterBytes (tr ++ stopTrace) v a).recordDeviceNotFound.release =
      { s.afterTransaction dev reg dat (decide (k = .rdreg)) 0x00000100#32 (tr ++ stopTrace) with
        sr := v, ack := a, fail := true, wstat := false } := by
  rw [acquire_afterBytes_stop, State.release, releaseWord_recordDeviceNotFound rfl]
  rfl

/-- The release of a `WRREG` that captured its write status (R120, R143). -/
theorem State.release_captureWriteStatus :
    ((s.acquire s.issuer .wrreg dev reg dat).afterBytes (tr ++ stopTrace) v a).captureWriteStatus.release =
      { s.afterTransaction dev reg dat false (if a then 0x00001000#32 else 0x00000000#32) (tr ++ stopTrace) with
        sr := v, ack := a, fail := false, wstat := a } := by
  rw [acquire_afterBytes_stop, ← resultWord_written]
  rfl

/-- The release of an `RDREG` that captured its byte (R121, R143). -/
theorem State.release_captureResult :
    ((s.acquire s.issuer .rdreg dev reg dat).afterBytes (tr ++ stopTrace) v a).captureResult.release =
      { s.afterTransaction dev reg dat true (v.setWidth 32) (tr ++ stopTrace) with
        sr := v, res := v, ack := a, fail := false, wstat := false } := by
  rw [acquire_afterBytes_stop, ← resultWord_read]
  rfl

end

end Sys2Proof.Machine

open Sys2Proof Sys2Proof.Machine

/-- Settles O18: `WRREG` by the level of its first acknowledgment, each path one trace, and its release. -/
theorem wrregWritesOneRegister : Obligations.WrregWritesOneRegister := by
  intro dev reg val s hr hl
  refine ⟨encode_wrreg dev reg val, fun h1 => ?_, fun h1 => ?_, length_absentTrace dev, length_writeTrace ..⟩
  · rw [exec_wrreg_of_free dev reg val hr hl,
      State.writeTransaction_of_nack ((presentedAfter_acquire ..).trans h1)]
    exact congrArg Host.Outcome.next (State.release_recordDeviceNotFound ..)
  · rw [exec_wrreg_of_free dev reg val hr hl, State.writeTransaction_of_ack ((presentedAfter_acquire ..).trans h1)
      (presentedAfter_acquire ..) (presentedAfter_acquire ..)]
    exact congrArg Host.Outcome.next (State.release_captureWriteStatus ..)

/-- Settles O19: `RDREG` by the levels of its two address acknowledgments, each path one trace, and its release. -/
theorem rdregReadsOneRegister : Obligations.RdregReadsOneRegister := by
  intro dev reg s hr hl
  refine ⟨encode_rdreg dev reg, fun h1 => ?_, fun h1 h3 => ?_, fun h1 h3 => ?_, length_absentTrace dev,
    length_unreadTrace ..⟩
  · rw [exec_rdreg_of_free dev reg hr hl,
      State.readTransaction_of_nack ((presentedAfter_acquire ..).trans h1)]
    exact congrArg Host.Outcome.next (State.release_recordDeviceNotFound ..)
  · rw [exec_rdreg_of_free dev reg hr hl,
      State.readTransaction_of_second_nack ((presentedAfter_acquire ..).trans h1) (presentedAfter_acquire ..)
        (presentedAfter_acquire ..) h3]
    exact congrArg Host.Outcome.next (State.release_recordDeviceNotFound ..)
  · obtain ⟨v, hbits, hrun⟩ := State.readTransaction_of_second_ack
      (s := s.acquire s.issuer .rdreg dev reg 0#8) ((presentedAfter_acquire ..).trans h1) (presentedAfter_acquire ..)
      (presentedAfter_acquire ..) h3
    refine ⟨v, fun j hj => (hbits j hj).trans (presentedAfter_acquire ..), ?_, length_readTrace ..⟩
    rw [exec_rdreg_of_free dev reg hr hl, hrun]
    exact congrArg Host.Outcome.next (State.release_captureResult ..)

end

section
/-!
SUPPORT. The sequencer at the end of a `WRBYTE` of a transaction (R122 to R124): the engine steps of its sample and of its
last line operation, and where the end of a transaction step leads.
-/

namespace Sys2Proof.Machine

/-! ### The end of a transaction step -/

/-- The steps that send an address byte: the first byte of either command and the second address of `RDREG` (R122, R123). -/
theorem sendsAddress_iff {k : CmdK} {t : Nat} :
    sendsAddress k t = true ↔ (k = .wrreg ∧ t = 1) ∨ (k = .rdreg ∧ t = 1) ∨ (k = .rdreg ∧ t = 8) := by
  unfold sendsAddress
  split <;> simp_all

/-- An address byte is a `WRBYTE` with a bare delay after it, and the command has a final `STOP` (R120, R121). -/
theorem stepTable_of_sendsAddress {k : CmdK} {t : Nat} (h : sendsAddress k t = true) :
    stepTable k t = some (.call .wrbyte) ∧ stepTable k (t + 1) = some .delay ∧
      stepTable k (finalStop k) = some (.call .stop) := by
  obtain ⟨rfl, rfl⟩ | ⟨rfl, rfl⟩ | ⟨rfl, rfl⟩ := sendsAddress_iff.mp h <;> exact ⟨rfl, rfl, rfl⟩

/-- Nothing is captured at the end of an address byte. -/
theorem State.captureAtEnd_of_sendsAddress (s : State) {k : CmdK} {t : Nat} (h : sendsAddress k t = true) :
    s.captureAtEnd k t = s := by
  obtain ⟨rfl, rfl⟩ | ⟨rfl, rfl⟩ | ⟨rfl, rfl⟩ := sendsAddress_iff.mp h <;> rfl

/-- Entering a step that sends no byte moves the sequencer and nothing else (R28). -/
theorem State.enterStep_of_ne_wrbyte {s : State} {t : Nat} {kind : StepKind}
    (ht : stepTable s.seq.cmdk t = some kind) (hp : stepPrim kind ≠ .wrbyte) :
    s.enterStep t = { s with seq := ⟨s.seq.cmdk, t, stepPrim kind, 0⟩ } := by
  simp [State.enterStep, ht, hp]

/-- A step that sends no address byte goes on to the next step after its capture. -/
theorem State.finishStep_of_not_sendsAddress {s : State} (h : sendsAddress s.seq.cmdk s.seq.tstep = false) :
    s.finishStep = (s.captureAtEnd s.seq.cmdk s.seq.tstep).enterStep (s.seq.tstep + 1) := by
  simp [State.finishStep, h]

/-- The branch on an address byte (R122, R123). -/
theorem State.finishStep_of_sendsAddress {s : State} (h : sendsAddress s.seq.cmdk s.seq.tstep = true) :
    s.finishStep = if s.ack then s.recordDeviceNotFound.enterStep (finalStop s.seq.cmdk)
      else s.enterStep (s.seq.tstep + 1) := by
  simp [State.finishStep, h, s.captureAtEnd_of_sendsAddress h]

/-! ### The last two operations of a `WRBYTE` -/

section
variable {s : State} {k : CmdK} {t : Nat}

/-- The engine step of the sample of a `WRBYTE` stores the level in `ACK` and advances (R30, R104). -/
theorem State.engineStep_wrbyte_sample (hl : s.lock = true) (hs : s.seq = ⟨k, t, .wrbyte, 35⟩)
    (ht : stepTable k t = some (.call .wrbyte)) :
    s.engineStep = .next { s.perform .getd with ack := s.sdaIn, seq := { s.seq with pstep := 36 } } := by
  have hn : engineNext s.seq s.sr = some (.perform .getd) := by simp [engineNext, hs, ht, primOp]
  simp [State.engineStep_perform hl hn, State.storeSample, State.advance, State.setAck, hs, primLength]

/-- The engine step of the last operation of a `WRBYTE` lowers the clock and ends the transaction step (R28). -/
theorem State.engineStep_wrbyte_last (hl : s.lock = true) (hs : s.seq = ⟨k, t, .wrbyte, 36⟩)
    (ht : stepTable k t = some (.call .wrbyte)) :
    s.engineStep = .next (s.perform (.setc low)).finishStep := by
  have hn : engineNext s.seq s.sr = some (.perform (.setc low)) := by simp [engineNext, hs, ht, primOp]
  simp [State.engineStep_perform hl hn, State.storeSample, State.advance, hs, primLength]

/-- An address byte not acknowledged: the failure is recorded and the final `STOP` comes next (R122, R123). -/
theorem State.engineStep_address_nack (hl : s.lock = true) (hs : s.seq = ⟨k, t, .wrbyte, 36⟩)
    (ha : sendsAddress k t = true) (hack : s.ack = high) :
    s.engineStep = .next { s.perform (.setc low) with fail := true, seq := ⟨k, finalStop k, .stop, 0⟩ } := by
  obtain ⟨hcall, -, hstop⟩ := stepTable_of_sendsAddress ha
  rw [State.engineStep_wrbyte_last hl hs hcall, State.finishStep_of_sendsAddress (by simpa [hs] using ha),
    State.perform_ack, hack, if_pos rfl, State.enterStep_of_ne_wrbyte (by simpa [hs] using hstop) (by decide)]
  simp [hs, State.recordDeviceNotFound, stepPrim]

/-- An address byte acknowledged: the bare delay after it comes next (R122, R123). -/
theorem State.engineStep_address_ack (hl : s.lock = true) (hs : s.seq = ⟨k, t, .wrbyte, 36⟩)
    (ha : sendsAddress k t = true) (hack : s.ack = low) :
    s.engineStep = .next { s.perform (.setc low) with seq := ⟨k, t + 1, .nothing, 0⟩ } := by
  obtain ⟨hcall, hdelay, -⟩ := stepTable_of_sendsAddress ha
  rw [State.engineStep_wrbyte_last hl hs hcall, State.finishStep_of_sendsAddress (by simpa [hs] using ha),
    State.perform_ack, hack, if_neg (by decide), State.enterStep_of_ne_wrbyte (by simpa [hs] using hdelay) (by decide)]
  simp [hs, stepPrim]

/-- The register address goes on to the bare delay after it, whatever `ACK` holds (R124). -/
theorem State.engineStep_register_last (hl : s.lock = true) (hk : k = .wrreg ∨ k = .rdreg)
    (hs : s.seq = ⟨k, 3, .wrbyte, 36⟩) :
    s.engineStep = .next { s.perform (.setc low) with seq := ⟨k, 4, .nothing, 0⟩ } := by
  obtain ⟨hcall, hdelay, haddr, hcapture⟩ : stepTable k 3 = some (.call .wrbyte) ∧ stepTable k 4 = some .delay ∧
      sendsAddress k 3 = false ∧ ∀ u : State, u.captureAtEnd k 3 = u := by
    obtain rfl | rfl := hk <;> exact ⟨rfl, rfl, rfl, fun _ => rfl⟩
  rw [State.engineStep_wrbyte_last hl hs hcall, State.finishStep_of_not_sendsAddress (by simpa [hs] using haddr),
    State.perform_seq, hs, hcapture,
    State.enterStep_of_ne_wrbyte (by simpa [hs] using hdelay) (by decide)]
  simp [hs, stepPrim]

/-- The data byte leaves `ACK` as the write status and goes on to the final `STOP` (R124). -/
theorem State.engineStep_data_last (hl : s.lock = true) (hs : s.seq = ⟨.wrreg, 5, .wrbyte, 36⟩) :
    s.engineStep = .next { s.perform (.setc low) with wstat := s.ack, seq := ⟨.wrreg, 6, .stop, 0⟩ } := by
  rw [State.engineStep_wrbyte_last hl hs rfl, State.finishStep_of_not_sendsAddress (by simp [hs, sendsAddress]),
    State.perform_seq, hs, State.captureAtEnd, State.enterStep_of_ne_wrbyte (kind := .call .stop) (by simp [hs, stepTable])
      (by decide)]
  simp [hs, State.captureWriteStatus, stepPrim]

end

end Sys2Proof.Machine

open Sys2Proof Sys2Proof.Machine

/-- Settles O30: step 1 of either command sends an address byte. -/
theorem firstAddressByteSteersTheSequencer : Obligations.FirstAddressByteSteersTheSequencer := by
  intro k s hl hk hs
  have ha : sendsAddress k 1 = true := by obtain rfl | rfl := hk <;> rfl
  have hfinal : finalStop k = if k = .wrreg then 6 else 12 := by obtain rfl | rfl := hk <;> rfl
  exact ⟨fun hack => hfinal ▸ State.engineStep_address_nack hl hs ha hack,
    State.engineStep_address_ack hl hs ha⟩

/-- Settles O31: step 8 of `RDREG` sends an address byte. -/
theorem secondAddressByteSteersTheSequencer : Obligations.SecondAddressByteSteersTheSequencer :=
  fun _ hl hs => ⟨State.engineStep_address_nack hl hs rfl, State.engineStep_address_ack hl hs rfl⟩

/-- Settles O32: the sample and the last operation of a byte that is no address, which take no branch. -/
theorem otherAcknowledgmentsDoNotSteer : Obligations.OtherAcknowledgmentsDoNotSteer := by
  refine fun k s hl hk => ⟨State.engineStep_register_last hl hk, State.engineStep_data_last hl, ?_⟩
  rintro (hs | hs)
  · exact State.engineStep_wrbyte_sample hl hs (by obtain rfl | rfl := hk <;> rfl)
  · exact State.engineStep_wrbyte_sample hl hs rfl

end

section
/-!
SUPPORT. The lifecycle (R147): what each shared operation, each instruction and each move does to it.
-/

namespace Sys2Proof.Machine

variable {s t : State}

/-! ### The three states of the lifecycle -/

theorem State.lifecycle_unregistered (hr : s.regd = false) : s.lifecycle = .unregistered := by
  simp [State.lifecycle, hr]

theorem State.lifecycle_registeredIdle (hr : s.regd = true) (hl : s.lock = false) : s.lifecycle = .registeredIdle := by
  simp [State.lifecycle, hr, hl]

theorem State.lifecycle_registeredBusy_iff : s.lifecycle = .registeredBusy ↔ s.regd = true ∧ s.lock = true := by
  cases hr : s.regd <;> cases hl : s.lock <;> simp [State.lifecycle, hr, hl]

/-- Only a registered bus is busy, and the release leaves it registered (R143). -/
theorem State.release_lifecycle_of_busy (h : s.lifecycle = .registeredBusy) : s.release.lifecycle = .registeredIdle :=
  lifecycle_registeredIdle (lifecycle_registeredBusy_iff.mp h).1 rfl

/-! ### Primitives and transactions -/

@[simp] theorem State.runStart_lifecycle (s : State) : s.runStart.lifecycle = s.lifecycle := rfl

@[simp] theorem State.runStop_lifecycle (s : State) : s.runStop.lifecycle = s.lifecycle := rfl

@[simp] theorem State.runNoack_lifecycle (s : State) : s.runNoack.lifecycle = s.lifecycle := rfl

@[simp] theorem State.runWrbyte_lifecycle (s : State) : s.runWrbyte.lifecycle = s.lifecycle := rfl

@[simp] theorem State.runRdbyte_lifecycle (s : State) : s.runRdbyte.lifecycle = s.lifecycle := rfl

@[simp] theorem State.callWrbyte_lifecycle (v : BitVec 8) (s : State) : (s.callWrbyte v).lifecycle = s.lifecycle := rfl

/-- Neither side of the branch on `ACK` moves the lifecycle when what an acknowledged byte goes on with does not. -/
theorem State.ifAcknowledged_lifecycle {body : State → State} (hbody : ∀ u : State, (body u).lifecycle = u.lifecycle)
    (s : State) : (s.ifAcknowledged body).lifecycle = s.lifecycle := by
  unfold State.ifAcknowledged
  split
  · rfl
  · exact hbody s

@[simp] theorem State.sendRegisterAndData_lifecycle (s : State) : s.sendRegisterAndData.lifecycle = s.lifecycle := rfl

@[simp] theorem State.receiveData_lifecycle (s : State) : s.receiveData.lifecycle = s.lifecycle := rfl

@[simp] theorem State.selectAndRead_lifecycle (s : State) : s.selectAndRead.lifecycle = s.lifecycle :=
  ifAcknowledged_lifecycle receiveData_lifecycle _

@[simp] theorem State.writeTransaction_lifecycle (s : State) : s.writeTransaction.lifecycle = s.lifecycle :=
  ifAcknowledged_lifecycle sendRegisterAndData_lifecycle _

@[simp] theorem State.readTransaction_lifecycle (s : State) : s.readTransaction.lifecycle = s.lifecycle :=
  ifAcknowledged_lifecycle selectAndRead_lifecycle _

/-- The instruction of a primitive leaves the lifecycle alone. -/
theorem exec_primitive_lifecycle {p : PrimSel} {i : Instr} (hp : p.instr = some i) (h : exec i s = .next t) :
    t.lifecycle = s.lifecycle := by
  cases p <;> cases hp <;> cases h
  · exact s.runStart_lifecycle
  · exact s.runStop_lifecycle
  · exact s.runNoack_lifecycle
  · exact s.runWrbyte_lifecycle
  · exact s.runRdbyte_lifecycle

/-! ### The bookkeeping of the sequencer -/

theorem State.captureAtEnd_lifecycle (k : CmdK) (n : Nat) (s : State) : (s.captureAtEnd k n).lifecycle = s.lifecycle := by
  unfold State.captureAtEnd
  split <;> rfl

theorem State.enterStep_lifecycle (n : Nat) (s : State) : (s.enterStep n).lifecycle = s.lifecycle := by
  unfold State.enterStep
  split <;> rfl

theorem State.storeSample_lifecycle (op : LineOp) (r : Level) (s : State) :
    (s.storeSample op r).lifecycle = s.lifecycle := by
  unfold State.storeSample
  repeat' split
  all_goals rfl

@[simp] theorem State.finishStep_lifecycle (s : State) : s.finishStep.lifecycle = s.lifecycle := by
  unfold State.finishStep
  dsimp only
  split <;> exact (enterStep_lifecycle _ _).trans (captureAtEnd_lifecycle _ _ s)

theorem State.advance_lifecycle (s : State) : s.advance.lifecycle = s.lifecycle := by
  unfold State.advance
  split
  · rfl
  · exact s.finishStep_lifecycle

/-! ### The moves of the agents -/

theorem State.post_lifecycle (p : Nat) (cw : BitVec 32) (s : State) : (s.post p cw).lifecycle = s.lifecycle := by
  obtain h | ⟨sl, -, -, h⟩ := s.post_cases p cw
  · rw [h]
  · rw [h]; rfl

theorem State.take_lifecycle (p : Nat) (s : State) : (s.take p).lifecycle = s.lifecycle := by
  obtain h | ⟨sl, -, -, h⟩ := s.take_cases p
  · rw [h]
  · rw [h]; rfl

/-- An engine step keeps the lifecycle but for the release, after which the bus is idle (R143). -/
theorem State.engineStep_lifecycle (h : s.engineStep = .next t) (hreg : s.lock = true → s.regd = true) :
    t.lifecycle = s.lifecycle ∨
    (s.lifecycle = .registeredBusy ∧ t.lifecycle = .registeredIdle ∧ engineNext s.seq s.sr = some .release) := by
  obtain ⟨-, rfl⟩ | ⟨hl, hn, rfl⟩ | ⟨-, op, -, rfl⟩ := State.engineStep_cases h
  · exact .inl rfl
  · have hbusy := lifecycle_registeredBusy_iff.mpr ⟨hreg hl, hl⟩
    exact .inr ⟨hbusy, release_lifecycle_of_busy hbusy, hn⟩
  · exact .inl ((advance_lifecycle _).trans (storeSample_lifecycle op _ _))

/-- A step at the grain of a primitive is an engine step, or runs one primitive to its end (R109). -/
theorem State.primitiveStep_cases (h : s.primitiveStep = .next t) :
    s.engineStep = .next t ∨
    ∃ p i u, s.primitiveAt = some p ∧ p.instr = some i ∧ exec i s = .next u ∧ t = u.finishStep := by
  unfold State.primitiveStep at h
  cases hp : s.primitiveAt with
  | none => exact .inl (by simpa only [hp] using h)
  | some p =>
    cases hi : p.instr with
    | none => simp [hp, decode_prim_code, hi] at h
    | some i =>
      simp only [hp, decode_prim_code, hi] at h
      obtain ⟨u, hu, rfl⟩ := andThen_next.mp h
      exact .inr ⟨p, i, u, rfl, hi, hu, rfl⟩

/-- The grain of the step does not matter to the lifecycle. -/
theorem State.primitiveStep_lifecycle (h : s.primitiveStep = .next t) (hreg : s.lock = true → s.regd = true) :
    t.lifecycle = s.lifecycle ∨
    (s.lifecycle = .registeredBusy ∧ t.lifecycle = .registeredIdle ∧ engineNext s.seq s.sr = some .release) := by
  obtain h | ⟨p, i, u, -, hi, hu, rfl⟩ := State.primitiveStep_cases h
  · exact engineStep_lifecycle h hreg
  · exact .inl (u.finishStep_lifecycle.trans (exec_primitive_lifecycle hi hu))

/-- `INIT` keeps the lifecycle of a registered bus and makes an unregistered one idle (R140). -/
theorem execInit_lifecycle (h : execInit s = .next t) :
    t.lifecycle = s.lifecycle ∨ (s.lifecycle = .unregistered ∧ t.lifecycle = .registeredIdle) := by
  obtain ⟨-, hs⟩ | ⟨hr, hs⟩ := execInit_cases s <;> cases hs.symm.trans h
  · exact .inl rfl
  · exact .inr ⟨State.lifecycle_unregistered hr, State.lifecycle_registeredIdle rfl rfl⟩

/-- A transaction run whole from acquire to release leaves the bus as it was: idle if the transaction could run at all. -/
theorem State.withLock_release_lifecycle (k : CmdK) (dev : BitVec 7) (reg dat : BitVec 8) {body : State → State}
    (hbody : ∀ u : State, (body u).lifecycle = u.lifecycle) (s : State) :
    (s.withLock k dev reg dat (fun u => (body u).release)).lifecycle = s.lifecycle := by
  obtain ⟨-, h⟩ | ⟨-, -, h⟩ | ⟨hr, hl, h⟩ := s.withLock_cases k dev reg dat (fun u => (body u).release)
  · rw [h]; rfl
  · rw [h]
  · have hbusy : (body (s.acquire s.issuer k dev reg dat)).lifecycle = .registeredBusy :=
      (hbody _).trans (lifecycle_registeredBusy_iff.mpr ⟨hr, rfl⟩)
    rw [h, release_lifecycle_of_busy hbusy, lifecycle_registeredIdle hr hl]

/-- The acceptance alone keeps the lifecycle, or makes an idle bus busy for the requester being answered (R142). -/
theorem State.withLock_id_lifecycle (k : CmdK) (dev : BitVec 7) (reg dat : BitVec 8) (s : State) :
    (s.withLock k dev reg dat id).lifecycle = s.lifecycle ∨
    (s.lifecycle = .registeredIdle ∧ (s.withLock k dev reg dat id).lifecycle = .registeredBusy ∧
      (s.withLock k dev reg dat id).owner = s.issuer) := by
  obtain ⟨-, h⟩ | ⟨-, -, h⟩ | ⟨hr, hl, h⟩ := s.withLock_cases k dev reg dat id <;> rw [h]
  · exact .inl rfl
  · exact .inl rfl
  · exact .inr ⟨lifecycle_registeredIdle hr hl, lifecycle_registeredBusy_iff.mpr ⟨hr, rfl⟩, rfl⟩

/-- A posted command run whole keeps the lifecycle, unless it is an `INIT` that registers. -/
theorem exec_postable_lifecycle {i : Instr} (hi : i.postable = true) (h : exec i s = .next t) :
    t.lifecycle = s.lifecycle ∨ (i = .init ∧ s.lifecycle = .unregistered ∧ t.lifecycle = .registeredIdle) := by
  cases i
  case wrreg dev reg val =>
    cases h
    exact .inl (s.withLock_release_lifecycle .wrreg dev reg val State.writeTransaction_lifecycle)
  case rdreg dev reg =>
    cases h
    exact .inl (s.withLock_release_lifecycle .rdreg dev reg 0#8 State.readTransaction_lifecycle)
  case init => exact (execInit_lifecycle h).imp_right fun hinit => ⟨rfl, hinit⟩
  all_goals cases hi

/-- A posted command granted keeps the lifecycle, unless it is an `INIT` that registers or a transaction that acquires. -/
theorem grantInstr_lifecycle {i : Instr} (hi : i.postable = true) (h : grantInstr i s = .next t) :
    t.lifecycle = s.lifecycle ∨
    (i = .init ∧ s.lifecycle = .unregistered ∧ t.lifecycle = .registeredIdle) ∨
    (s.lifecycle = .registeredIdle ∧ t.lifecycle = .registeredBusy ∧ t.owner = s.issuer) := by
  cases i
  case wrreg dev reg val =>
    cases h
    exact (s.withLock_id_lifecycle .wrreg dev reg val).imp_right .inr
  case rdreg dev reg =>
    cases h
    exact (s.withLock_id_lifecycle .rdreg dev reg 0#8).imp_right .inr
  case init => exact (execInit_lifecycle h).imp_right fun hinit => .inl ⟨rfl, hinit⟩
  all_goals cases hi

/-- An answer keeps the lifecycle, unless it goes on with a pending command that does not. -/
theorem State.answer_lifecycle {p : Nat} {run : Instr → State → Host.Outcome State Fault Refusal}
    (h : s.answer p run = .next t) :
    t.lifecycle = s.lifecycle ∨
    ∃ sl i, s.slot? p = some sl ∧ sl.pending = true ∧ decodeCommand sl.reqCw = .ok i ∧
      run i { s with issuer := p } = .next t := by
  obtain rfl | ⟨sl, hs, hp, ⟨-, rfl⟩ | ⟨i, hd, hrun⟩⟩ := State.answer_cases h
  · exact .inl rfl
  · exact .inl rfl
  · exact .inr ⟨sl, i, hs, hp, hd, hrun⟩

end Sys2Proof.Machine

open Sys2Proof Sys2Proof.Machine

/-- Settles O47: by the move that is next. Only a pending command that is answered and an engine step at the release can
move the lifecycle. -/
theorem lifecycleMovesOnlyForward : Obligations.LifecycleMovesOnlyForward := by
  rintro s t ⟨-, hreg, -, -⟩ hstep
  have hmove := step_cases hstep
  obtain ⟨ms, n, hpop⟩ := s.popMove_eq
  rw [hpop] at hmove
  obtain ⟨p, cw, -, rfl⟩ | ⟨p, -, rfl⟩ | ⟨v, -, rfl⟩ | ⟨p, hm, h⟩ | ⟨hm, h⟩ | ⟨hm, h⟩ | ⟨p, hm, h⟩ := hmove
  · exact .inl (State.post_lifecycle p cw _)
  · exact .inl (State.take_lifecycle p _)
  · exact .inl rfl
  · obtain hsame | ⟨sl, i, hs, hp, hd, hrun⟩ := State.answer_lifecycle h
    · exact .inl hsame
    · obtain hsame | ⟨rfl, hfrom, hto⟩ | ⟨hfrom, hto, howner⟩ := grantInstr_lifecycle (decodeCommand_postable hd) hrun
      · exact .inl hsame
      · exact .inr (.inl ⟨hfrom, hto, p, sl, .inl hm, hs, hp, hd⟩)
      · exact .inr (.inr (.inl ⟨hfrom, hto, p, hm, howner⟩))
  · exact (State.engineStep_lifecycle h hreg).imp_right fun ⟨hfrom, hto, hn⟩ => .inr (.inr ⟨hfrom, hto, .inl hm, hn⟩)
  · exact (State.primitiveStep_lifecycle h hreg).imp_right fun ⟨hfrom, hto, hn⟩ => .inr (.inr ⟨hfrom, hto, .inr hm, hn⟩)
  · obtain hsame | ⟨sl, i, hs, hp, hd, hrun⟩ := State.answer_lifecycle h
    · exact .inl hsame
    · obtain hsame | ⟨rfl, hfrom, hto⟩ := exec_postable_lifecycle (decodeCommand_postable hd) hrun
      · exact .inl hsame
      · exact .inr (.inl ⟨hfrom, hto, p, sl, .inr hm, hs, hp, hd⟩)

end

section
/-!
SUPPORT. Registration, the lock and the slots (R140 to R143): `INIT` unregistered and registered, the grant of a posted
transaction command with its operands as fields of the word, and the result word of either release.
-/

namespace Sys2Proof

/-! ### The rows of the transaction commands -/

/-- A word in the row of `WRREG` decodes to its fields (R75, R81). -/
theorem decodeCommand_of_wrreg_mask {w : BitVec 32} (h : w &&& 0xFF800000#32 = 0x10000000#32) :
    decodeCommand w = .ok (.wrreg (fieldDev w) (fieldReg w) (fieldDat w)) :=
  if_pos h

/-- A word in the row of `RDREG` is not in that of `WRREG`, by its operation code, and decodes to its fields (R75, R81). -/
theorem decodeCommand_of_rdreg_mask {w : BitVec 32} (h : w &&& 0xFF8000FF#32 = 0x20000000#32) :
    decodeCommand w = .ok (.rdreg (fieldDev w) (fieldReg w)) := by
  have hop : w.extractLsb' 28 4 = 0x2#4 := ((rdreg_mask_iff w).mp h).1
  have hne : ¬ w &&& 0xFF800000#32 = 0x10000000#32 := by
    rw [wrreg_mask_iff, hop]
    exact fun hw => absurd hw.1 (by decide)
  rw [decodeCommand, if_neg hne, if_pos h]

end Sys2Proof

namespace Sys2Proof.Machine

/-! ### `INIT` -/

/-- `INIT` while unregistered (R140). -/
theorem exec_init_of_unregistered {s : State} (hr : s.regd = false) :
    exec .init s = .next { s with
      lock := false, timeout := registeredTimeout s.cfgTimeout, regd := true
      slots := answered s.issuer 0x00000000#32 s.slots } := by
  obtain ⟨hr', -⟩ | ⟨-, h⟩ := execInit_cases s
  · cases hr.symm.trans hr'
  · exact h

/-- `INIT` once registered (R140, R153). -/
theorem exec_init_of_registered {s : State} (hr : s.regd = true) :
    exec .init s = .next { s with slots := answered s.issuer 0x00000300#32 s.slots } := by
  obtain ⟨-, h⟩ | ⟨hr', -⟩ := execInit_cases s
  · exact h
  · cases hr.symm.trans hr'

/-! ### The grant -/

section
variable {s : State} {p : Nat} {sl : Slot} {i : Instr} {k : CmdK} {dev : BitVec 7} {reg dat : BitVec 8}
  (hs : s.slot? p = some sl) (hp : sl.pending = true) (hd : decodeCommand sl.reqCw = .ok i)
  (ht : transactionOf i = some (k, dev, reg, dat))
include hs hp hd ht

/-- The grant of a pending transaction command is its acceptance (R141). -/
theorem State.grantStep_of_transaction :
    s.grantStep p = .next (State.withLock k dev reg dat id { s with issuer := p }) := by
  simp [State.grantStep, State.answer, hs, hp, decode, hd, grantInstr, ht]

/-- Registered and with the lock free, a pending transaction command acquires (R142). -/
theorem State.grantStep_of_free (hr : s.regd = true) (hl : s.lock = false) :
    s.grantStep p = .next (State.acquire p k dev reg dat { s with issuer := p }) := by
  rw [State.grantStep_of_transaction hs hp hd ht]
  simp [State.withLock, hr, hl]

/-- Registered and with the lock held, a pending transaction command waits (R142). -/
theorem State.grantStep_of_locked (hr : s.regd = true) (hl : s.lock = true) :
    s.grantStep p = .next { s with issuer := p } := by
  rw [State.grantStep_of_transaction hs hp hd ht]
  simp [State.withLock, hr, hl]

end

/-! ### The release -/

/-- A result word is the union of a word for `WSTAT` and one for `CODE` and `DATA` (R76). -/
theorem resultWord_eq_or (wstat : Bool) (code : ResultCode) (data : BitVec 8) :
    resultWord wstat code data =
      (if wstat then 0x00001000#32 else 0#32) ||| ((resultCodeBits code).setWidth 32 <<< 8 ||| data.setWidth 32) := by
  rw [resultWord, BitVec.or_assoc]
  cases wstat <;> rfl

/-- The result word of a `WRREG` carries no data (R143). -/
theorem State.releaseWord_of_wrreg {s : State} (hk : s.seq.cmdk = .wrreg) :
    s.releaseWord = (if s.wstat then 0x00001000#32 else 0#32) ||| (if s.fail then 0x00000100#32 else 0#32) := by
  cases hf : s.fail <;> simp [State.releaseWord, resultWord_eq_or, hk, hf, resultCodeBits]

/-- The result word of an `RDREG` carries the byte in `RES` unless a failure is recorded (R143). -/
theorem State.releaseWord_of_rdreg {s : State} (hk : s.seq.cmdk = .rdreg) :
    s.releaseWord =
      (if s.wstat then 0x00001000#32 else 0#32) ||| (if s.fail then 0x00000100#32 else s.res.setWidth 32) := by
  cases hf : s.fail <;> simp [State.releaseWord, resultWord_eq_or, hk, hf, resultCodeBits]

end Sys2Proof.Machine

open Sys2Proof Sys2Proof.Machine

/-- Settles O25: the two outcomes of `INIT`. -/
theorem initRegistersOnce : Obligations.InitRegistersOnce :=
  fun _ => ⟨rfl, exec_init_of_unregistered, exec_init_of_registered⟩

/-- Settles O27: the posted word decodes to its fields, and the acceptance acquires or waits. The fields of an `RDREG` word
include a `DAT` of 0. -/
theorem acquireLatchesThePostedCommand : Obligations.AcquireLatchesThePostedCommand := by
  intro s p sl hs hp hr
  refine ⟨fun hw hl => ?_, fun hw hl => ?_, ?_⟩
  · exact State.grantStep_of_free hs hp (decodeCommand_of_wrreg_mask hw) rfl hr hl
  · have hdat : sl.reqCw.extractLsb' 0 8 = 0#8 := ((rdreg_mask_iff _).mp hw).2.2
    rw [hdat]
    exact State.grantStep_of_free hs hp (decodeCommand_of_rdreg_mask hw) rfl hr hl
  · rintro (hw | hw) hl
    · exact State.grantStep_of_locked hs hp (decodeCommand_of_wrreg_mask hw) rfl hr hl
    · exact State.grantStep_of_locked hs hp (decodeCommand_of_rdreg_mask hw) rfl hr hl

/-- Settles O28: each release position is in its step table, and the release writes the result word of its command. -/
theorem releaseDeliversTheResult : Obligations.ReleaseDeliversTheResult := by
  intro s hl
  refine ⟨fun hseq => ?_, fun hseq => ?_⟩
  · rw [runMove, State.engineStep_release hl (by rw [hseq]; rfl), ← State.releaseWord_of_wrreg (by rw [hseq])]
    rfl
  · rw [runMove, State.engineStep_release hl (by rw [hseq]; rfl), ← State.releaseWord_of_rdreg (by rw [hseq])]
    rfl

end

section
/-!
SUPPORT. The three code spaces (R74 to R81): the fields of a command word, decoding an encoding and encoding a decoded
word, and the rows of the opcode table read as the mnemonic a word decodes to.
-/

namespace Sys2Proof

/-! ### The fields of a command word -/

section
variable (op : BitVec 4) (dev : BitVec 7) (reg dat : BitVec 8)

/-- The bits of the word of R81: the operands in the places of R74, and `Z` 0. -/
theorem getLsbD_commandWord (i : Nat) :
    (commandWord op dev reg dat).getLsbD i =
      if i < 8 then dat.getLsbD i
      else if i < 16 then reg.getLsbD (i - 8)
      else if i < 23 then dev.getLsbD (i - 16)
      else if i < 28 then false
      else op.getLsbD (i - 28) := by
  by_cases hi : i < 32
  · simp only [commandWord, BitVec.getLsbD_or, BitVec.getLsbD_shiftLeft, BitVec.getLsbD_setWidth]
    interval_cases i <;> simp
  · rw [BitVec.getLsbD_of_ge _ _ (by omega), BitVec.getLsbD_of_ge op _ (by omega)]
    simp [show ¬ i < 8 by omega, show ¬ i < 16 by omega, show ¬ i < 23 by omega]

theorem fieldOp_commandWord : (commandWord op dev reg dat).extractLsb' 28 4 = op := by
  refine BitVec.eq_of_getLsbD_eq fun i hi => ?_
  simp [getLsbD_commandWord, hi, show ¬ 28 + i < 8 by omega, show ¬ 28 + i < 16 by omega,
    show ¬ 28 + i < 23 by omega]

theorem fieldZ_commandWord : (commandWord op dev reg dat).extractLsb' 23 5 = 0#5 := by
  refine BitVec.eq_of_getLsbD_eq fun i hi => ?_
  simp [getLsbD_commandWord, hi, show ¬ 23 + i < 8 by omega, show ¬ 23 + i < 16 by omega,
    show 23 + i < 28 by omega]

theorem fieldDev_commandWord : fieldDev (commandWord op dev reg dat) = dev := by
  refine BitVec.eq_of_getLsbD_eq fun i hi => ?_
  simp [fieldDev, getLsbD_commandWord, hi, show ¬ 16 + i < 8 by omega, show 16 + i < 23 by omega]

theorem fieldReg_commandWord : fieldReg (commandWord op dev reg dat) = reg := by
  refine BitVec.eq_of_getLsbD_eq fun i hi => ?_
  simp [fieldReg, getLsbD_commandWord, hi, show 8 + i < 16 by omega]

theorem fieldDat_commandWord : fieldDat (commandWord op dev reg dat) = dat := by
  refine BitVec.eq_of_getLsbD_eq fun i hi => ?_
  simp [fieldDat, getLsbD_commandWord, hi]

/-- A word is the word of its fields exactly when its `Z` is 0. -/
theorem commandWord_fields {w : BitVec 32} (hop : w.extractLsb' 28 4 = op) (hz : w.extractLsb' 23 5 = 0#5) :
    commandWord op (fieldDev w) (fieldReg w) (fieldDat w) = w := by
  rw [word_eq_iff_fields, fieldOp_commandWord, fieldZ_commandWord, fieldDev_commandWord, fieldReg_commandWord,
    fieldDat_commandWord]
  exact ⟨hop.symm, hz.symm, rfl, rfl, rfl⟩

end

/-! ### Command words -/

theorem decodeCommand_wrreg_word (dev : BitVec 7) (reg val : BitVec 8) :
    decodeCommand (commandWord 0x1#4 dev reg val) = .ok (.wrreg dev reg val) := by
  have hrow := (wrreg_mask_iff (commandWord 0x1#4 dev reg val)).mpr ⟨fieldOp_commandWord .., fieldZ_commandWord ..⟩
  rw [decodeCommand_of_wrreg_mask hrow, fieldDev_commandWord, fieldReg_commandWord, fieldDat_commandWord]

theorem decodeCommand_rdreg_word (dev : BitVec 7) (reg : BitVec 8) :
    decodeCommand (commandWord 0x2#4 dev reg 0#8) = .ok (.rdreg dev reg) := by
  have hrow := (rdreg_mask_iff (commandWord 0x2#4 dev reg 0#8)).mpr
    ⟨fieldOp_commandWord .., fieldZ_commandWord .., fieldDat_commandWord ..⟩
  rw [decodeCommand_of_rdreg_mask hrow, fieldDev_commandWord, fieldReg_commandWord]

/-- A command word that decodes is the code of its instruction. -/
theorem encode_of_decodeCommand {w : BitVec 32} {i : Instr} (h : decodeCommand w = .ok i) : encode i = .cmd w := by
  unfold decodeCommand at h
  split at h
  · next hrow =>
    cases h
    obtain ⟨hop, hz⟩ := (wrreg_mask_iff w).mp hrow
    exact congrArg CodeWord.cmd (commandWord_fields _ hop hz)
  split at h
  · next hrow =>
    cases h
    obtain ⟨hop, hz, hdat⟩ := (rdreg_mask_iff w).mp hrow
    exact congrArg CodeWord.cmd (hdat ▸ commandWord_fields _ hop hz)
  split at h
  · next hrow =>
    cases h
    have hw : w = 0x30000000#32 := (and_eq_self_of_allOnes rfl).symm.trans hrow
    rw [hw]
    rfl
  · cases h

/-! ### Codes of three bits -/

/-- A primitive select code that decodes is the code of its instruction. -/
theorem encode_of_decodePrim {c : BitVec 3} {i : Instr} (h : decodePrim c = .ok i) : encode i = .prim c := by
  have hall : ∀ c : BitVec 3, ∀ i ∈ (decodePrim c).toOption, encode i = .prim c := by decide
  exact hall c i (by rw [h]; rfl)

/-- A line-operation word that decodes is the code of its instruction. -/
theorem encode_of_decodeLop {c : BitVec 3} {i : Instr} (h : decodeLop c = .ok i) : encode i = .lop c := by
  have hall : ∀ c : BitVec 3, ∀ i ∈ (decodeLop c).toOption, encode i = .lop c := by decide
  exact hall c i (by rw [h]; rfl)

/-! ### The rows -/

/-- The mnemonic a code word decodes to, if it decodes. -/
def mnemonicOf (x : CodeWord) : Option String := (decode x).toOption.map Instr.mnemonic

theorem mnemonicOf_eq_some_iff {x : CodeWord} {m : String} :
    mnemonicOf x = some m ↔ ∃ i : Instr, decode x = .ok i ∧ i.mnemonic = m := by
  unfold mnemonicOf
  cases decode x <;> simp [Except.toOption]

theorem selects_prim_iff : ∀ r ∈ opcodeTable, ∀ c : BitVec 3,
    r.selects (.prim c) = true ↔ mnemonicOf (.prim c) = some r.mnemonic := by
  decide

theorem selects_lop_iff : ∀ r ∈ opcodeTable, ∀ c : BitVec 3,
    r.selects (.lop c) = true ↔ mnemonicOf (.lop c) = some r.mnemonic := by
  decide

/-- The rows of the three commands read by their masks; the operation code keeps them apart. -/
theorem mnemonicOf_cmd (w : BitVec 32) :
    mnemonicOf (.cmd w) =
      if w &&& 0xFF800000#32 = 0x10000000#32 then some "WRREG"
      else if w &&& 0xFF8000FF#32 = 0x20000000#32 then some "RDREG"
      else if w &&& 0xFFFFFFFF#32 = 0x30000000#32 then some "INIT"
      else none := by
  simp only [mnemonicOf, decode, decodeCommand]
  split_ifs <;> rfl

theorem not_wrreg_mask_of_rdreg_mask {w : BitVec 32} (h : w &&& 0xFF8000FF#32 = 0x20000000#32) :
    ¬ w &&& 0xFF800000#32 = 0x10000000#32 := by
  rw [wrreg_mask_iff, ((rdreg_mask_iff w).mp h).1]
  exact fun hw => absurd hw.1 (by decide)

theorem not_transaction_mask_of_init_mask {w : BitVec 32} (h : w &&& 0xFFFFFFFF#32 = 0x30000000#32) :
    ¬ w &&& 0xFF800000#32 = 0x10000000#32 ∧ ¬ w &&& 0xFF8000FF#32 = 0x20000000#32 := by
  rw [wrreg_mask_iff, rdreg_mask_iff, ((init_mask_iff w).mp h).1]
  exact ⟨fun hw => absurd hw.1 (by decide), fun hw => absurd hw.1 (by decide)⟩

theorem selects_cmd_iff (w : BitVec 32) : ∀ r ∈ opcodeTable,
    r.selects (.cmd w) = true ↔ mnemonicOf (.cmd w) = some r.mnemonic := by
  have hrd := not_wrreg_mask_of_rdreg_mask (w := w)
  have hinit := not_transaction_mask_of_init_mask (w := w)
  simp only [opcodeTable, List.forall_mem_cons, mnemonicOf_cmd, OpcodeRow.selects, beq_iff_eq]
  split_ifs with h1 h2 h3 <;> simp_all

end Sys2Proof

open Sys2Proof Sys2Proof.Machine

/-- Settles O2: the operands of a command are the fields of its word, and the codes of the lower layers are few. -/
theorem decodeOfEncodeIsTheInstruction : Obligations.DecodeOfEncodeIsTheInstruction := by
  intro i
  cases i with
  | wrreg dev reg val => exact decodeCommand_wrreg_word dev reg val
  | rdreg dev reg => exact decodeCommand_rdreg_word dev reg
  | setc l => exact decode_lop_code (.setc l)
  | setd l => exact decode_lop_code (.setd l)
  | init | start | stop | noack | wrbyte | rdbyte | getd | dly => rfl

/-- Settles O3: a command word in a row of R75 is the word of its own fields; the sixteen codes of the lower layers are
checked one by one. -/
theorem encodeOfDecodeIsTheCodeWord : Obligations.EncodeOfDecodeIsTheCodeWord := by
  intro x i h
  cases x with
  | cmd w => exact encode_of_decodeCommand h
  | prim c => exact encode_of_decodePrim h
  | lop c => exact encode_of_decodeLop h

/-- Settles O4: a row selects the words whose instruction has its mnemonic, in each of the three code spaces. -/
theorem rowsSelectExactlyTheirInstruction : Obligations.RowsSelectExactlyTheirInstruction := by
  intro r hr x
  rw [← mnemonicOf_eq_some_iff]
  cases x with
  | cmd w => exact selects_cmd_iff w r hr
  | prim c => exact selects_prim_iff r hr c
  | lop c => exact selects_lop_iff r hr c

/-- Settles O1: each word is evaluated by the decoder. -/
theorem specWordsDecodeToTheirInstructions : Obligations.SpecWordsDecodeToTheirInstructions :=
  ⟨rfl, rfl, rfl, rfl, rfl, rfl, rfl, rfl, rfl, rfl, rfl, rfl, rfl, rfl, rfl, rfl⟩

end

section
/-!
SUPPORT. The fields of the address byte (R71) and of a result word (R76).
-/

namespace Sys2Proof.Machine

theorem addressByte_dev (dev : BitVec 7) (dirbit : Level) : (addressByte dev dirbit).extractLsb' 1 7 = dev := by
  refine BitVec.eq_of_getLsbD_eq fun i hi => ?_
  simp [addressByte, hi, show 1 + i < 8 by omega]

theorem addressByte_dirbit (dev : BitVec 7) (dirbit : Level) : (addressByte dev dirbit).getLsbD 0 = dirbit := by
  simp [addressByte]

section
variable (wstat : Bool) (code : ResultCode) (data : BitVec 8)

/-- The bits of a result word. -/
theorem getLsbD_resultWord (i : Nat) :
    (resultWord wstat code data).getLsbD i =
      if i < 8 then data.getLsbD i
      else if i < 12 then (resultCodeBits code).getLsbD (i - 8)
      else decide (i = 12) && wstat := by
  by_cases hi : i < 32
  · simp only [resultWord, BitVec.getLsbD_or, BitVec.getLsbD_shiftLeft, BitVec.getLsbD_setWidth]
    interval_cases i <;> simp
  · rw [BitVec.getLsbD_of_ge _ _ (by omega)]
    simp [show ¬ i < 8 by omega, show ¬ i < 12 by omega, show i ≠ 12 by omega]

theorem rwWstat_resultWord : rwWstat (resultWord wstat code data) = wstat := by
  rw [rwWstat, getLsbD_resultWord]
  simp

theorem rwData_resultWord : rwData (resultWord wstat code data) = data := by
  refine BitVec.eq_of_getLsbD_eq fun i hi => ?_
  simp [rwData, getLsbD_resultWord, hi]

theorem rwCode_resultWord : rwCode (resultWord wstat code data) = resultCodeBits code := by
  refine BitVec.eq_of_getLsbD_eq fun i hi => ?_
  simp [rwCode, getLsbD_resultWord, hi, show 8 + i < 12 by omega]

theorem resultWord_unused : (resultWord wstat code data).extractLsb' 13 19 = 0#19 := by
  refine BitVec.eq_of_getLsbD_eq fun i hi => ?_
  simp [getLsbD_resultWord, show ¬ 13 + i < 8 by omega, show ¬ 13 + i < 12 by omega, show 13 + i ≠ 12 by omega]

theorem resultCodeBits_le : (resultCodeBits code).toNat ≤ 4 := by
  cases code <;> decide

/-- A result word is legal when it carries neither data nor a write status beside another code than `OK` (R76). -/
theorem resultWordLegal_resultWord (h : code ≠ .ok → data = 0#8 ∧ wstat = false) :
    resultWordLegal (resultWord wstat code data) = true := by
  simp only [resultWordLegal, rwWstat_resultWord, rwData_resultWord, rwCode_resultWord, resultWord_unused,
    resultCodeBits_le]
  by_cases hcode : code = .ok
  · simp [hcode, resultCodeBits]
  · simp [h hcode]

end

end Sys2Proof.Machine

open Sys2Proof Sys2Proof.Machine

/-- Settles O6: bit by bit, from the shift of the address and the direction bit below it. -/
theorem addressByteHoldsDeviceAndDirection : Obligations.AddressByteHoldsDeviceAndDirection :=
  fun dev dirbit => ⟨addressByte_dev dev dirbit, addressByte_dirbit dev dirbit⟩

/-- Settles O7: each field is read off the bits of the word. -/
theorem resultWordFieldsReadBack : Obligations.ResultWordFieldsReadBack := by
  intro wstat code data
  refine ⟨rwWstat_resultWord .., rwData_resultWord .., resultWord_unused .., ?_⟩
  rw [rwCode_resultWord]
  cases code <;> rfl

end

section
/-!
SUPPORT. The engine at the grain of a line operation (R28) and of a primitive (R109): the operations of a primitive as a
list, and the engine's run over that list.
-/

namespace Sys2Proof.Machine

variable {s t u : State}

/-! ### Runs of engine steps -/

theorem engineSteps_one (h : s.engineStep = .next t) : engineSteps 1 s = .next t := by
  simp [engineSteps, h]

theorem engineSteps_succ (h : s.engineStep = .next t) (n : Nat) : engineSteps (n + 1) s = engineSteps n t := by
  simp [engineSteps, h]

/-- Two runs one after the other. -/
theorem engineSteps_add {m : Nat} (h : engineSteps m s = .next t) (n : Nat) :
    engineSteps (m + n) s = engineSteps n t := by
  induction m generalizing s with
  | zero =>
    cases h
    rw [Nat.zero_add]
  | succ m ih =>
    rw [Nat.add_right_comm, engineSteps]
    rw [engineSteps] at h
    cases hstep : s.engineStep with
    | next v => exact ih (by simpa only [hstep] using h)
    | fault r => simp only [hstep] at h; cases h
    | refused r => simp only [hstep] at h; cases h

/-- What every engine step keeps, a run of them keeps. -/
theorem engineSteps_keeps {P : State → Prop} (hP : ∀ s t : State, P s → s.engineStep = .next t → P t) {n : Nat}
    (hs : P s) (h : engineSteps n s = .next t) : P t := by
  induction n generalizing s with
  | zero =>
    cases h
    exact hs
  | succ n ih =>
    rw [engineSteps] at h
    cases hstep : s.engineStep with
    | next v => exact ih (hP s v hs hstep) (by simpa only [hstep] using h)
    | fault r => simp only [hstep] at h; cases h
    | refused r => simp only [hstep] at h; cases h

/-! ### The operations of a primitive -/

/-- The line operations of a primitive with `v` in `SR`, in order (R101 to R105). -/
def primOps (p : PrimSel) (v : BitVec 8) : List LineOp :=
  match p with
  | .nothing => []
  | .start   => [.setd high, .setc high, .dly, .setd low, .dly, .setc low]
  | .stop    => [.setd low, .dly, .setc high, .dly, .setd high, .dly]
  | .noack   => [.dly, .setd high, .setc high, .dly, .setc low, .dly, .setd low, .dly]
  | .wrbyte  =>
    (List.range 8).flatMap (fun j => [.setd (cellBit v j), .setc high, .dly, .setc low]) ++
      [.setd high, .setc high, .dly, .getd, .setc low]
  | .rdbyte  => .setd high :: (List.range 8).flatMap (fun _ => [.dly, .setc high, .getd, .setc low])

@[simp] theorem length_primOps (p : PrimSel) (v : BitVec 8) : (primOps p v).length = primLength p := by
  cases p <;> rfl

/-- `PSTEP` counts the operations of the primitive (R27, R101 to R105). -/
theorem primOp_eq_getElem? (p : PrimSel) (v : BitVec 8) (k : Nat) : primOp p v k = (primOps p v)[k]? := by
  by_cases hk : k < primLength p
  · cases p with
    | wrbyte | rdbyte => simp only [primLength] at hk; interval_cases k <;> rfl
    | nothing | start | stop | noack => rfl
  · rw [List.getElem?_eq_none (by rw [length_primOps]; omega)]
    cases p with
    | nothing => rfl
    | wrbyte => simp only [primLength] at hk; simp [primOp, show ¬ k < 32 by omega]; omega
    | rdbyte => simp only [primLength] at hk; simp [primOp, show k ≠ 0 by omega]; omega
    | start | stop | noack =>
      simp only [primLength] at hk
      exact List.getElem?_eq_none (Nat.le_of_not_lt hk)

/-- A primitive has an operation at each index below its length and none beyond. -/
theorem primOp_isSome (p : PrimSel) (v : BitVec 8) (k : Nat) : (primOp p v k).isSome = true ↔ k < primLength p := by
  rw [primOp_eq_getElem?]
  simp

/-- A line operation with what a primitive does with its sample (R104, R105). -/
def State.performIn (p : PrimSel) (s : State) (op : LineOp) : State :=
  match p with
  | .wrbyte => if op = .getd then (s.perform op).setAck s.sdaIn else s.perform op
  | .rdbyte => if op = .getd then (s.perform op).loadSr (shiftIn s.sr s.sdaIn) else s.perform op
  | .nothing | .start | .stop | .noack => s.perform op

theorem State.performIn_seq (p : PrimSel) (op : LineOp) : (s.performIn p op).seq = s.seq := by
  cases p with
  | wrbyte | rdbyte =>
    simp only [State.performIn]
    split <;> rfl
  | nothing | start | stop | noack => rfl

theorem State.performIn_lock (p : PrimSel) (op : LineOp) : (s.performIn p op).lock = s.lock := by
  cases p with
  | wrbyte | rdbyte =>
    simp only [State.performIn]
    split <;> rfl
  | nothing | start | stop | noack => rfl

/-- Only `RDBYTE` writes `SR`, and its operations do not depend on it. -/
theorem primOps_performIn (p : PrimSel) (op : LineOp) : primOps p (s.performIn p op).sr = primOps p s.sr := by
  cases p with
  | wrbyte => unfold State.performIn; dsimp only; split <;> rfl
  | nothing | start | stop | noack | rdbyte => rfl

/-- A primitive by its selector (R101 to R105). -/
def State.runPrim (p : PrimSel) (s : State) : State :=
  match p with
  | .nothing => s
  | .start   => s.runStart
  | .stop    => s.runStop
  | .noack   => s.runNoack
  | .wrbyte  => s.runWrbyte
  | .rdbyte  => s.runRdbyte

/-- A primitive other than `RDBYTE` is its operations one by one. -/
theorem State.runPrim_eq_foldl {p : PrimSel} (hp : p ≠ .rdbyte) (s : State) :
    s.runPrim p = (primOps p s.sr).foldl (State.performIn p) s := by
  cases p with
  | rdbyte => exact absurd rfl hp
  | nothing | start | stop | noack | wrbyte => rfl

/-- `RDBYTE` clears `SR` after its first operation (R105). -/
theorem State.runPrim_rdbyte_eq_foldl (s : State) :
    s.runPrim .rdbyte =
      (primOps .rdbyte s.sr).tail.foldl (State.performIn .rdbyte) ((s.perform (.setd high)).loadSr 0#8) := rfl

/-! ### The engine within a primitive -/

/-- The state with the sequencer at index `k` of its primitive. -/
def State.atPstep (k : Nat) (s : State) : State := { s with seq := { s.seq with pstep := k } }

/-- The engine is in the course of the primitive `p`, which a transaction step calls. -/
def State.inPrim (p : PrimSel) (s : State) : Prop :=
  s.lock = true ∧ s.seq.prim = p ∧ stepTable s.seq.cmdk s.seq.tstep = some (.call p)

theorem State.performIn_inPrim {p : PrimSel} (h : s.inPrim p) (op : LineOp) : (s.performIn p op).inPrim p := by
  unfold State.inPrim
  rw [performIn_seq, performIn_lock]
  exact h

/-- After its first operation a primitive stores its samples and nothing else (R104, R105). -/
theorem State.storeSample_atPstep {p : PrimSel} {k : Nat} (hp : s.seq.prim = p) (hk : k ≠ 0 ∨ p ≠ .rdbyte) (op : LineOp) :
    ((s.atPstep k).perform op).storeSample op (s.atPstep k).sdaIn = (s.performIn p op).atPstep k := by
  have hprim : ((s.atPstep k).perform op).seq.prim = p := hp
  unfold State.storeSample State.performIn
  rw [hprim]
  cases p with
  | nothing | start | stop | noack => rfl
  | wrbyte => by_cases hop : op = .getd <;> simp only [hop, if_true, if_false] <;> rfl
  | rdbyte =>
    have hk : ((s.atPstep k).perform op).seq.pstep ≠ 0 := hk.resolve_right (fun h => h rfl)
    by_cases hop : op = .getd <;> simp only [hop, hk, if_true, if_false] <;> rfl

theorem State.enterStep_atPstep (k n : Nat) (s : State) : (s.atPstep k).enterStep n = s.enterStep n := by
  unfold State.enterStep
  cases h : stepTable s.seq.cmdk n with
  | none => simp only [State.atPstep, h]
  | some kind => simp only [State.atPstep, h]; rfl

theorem State.captureAtEnd_atPstep (c : CmdK) (n k : Nat) (s : State) :
    (s.atPstep k).captureAtEnd c n = (s.captureAtEnd c n).atPstep k := by
  unfold State.captureAtEnd
  split <;> rfl

/-- The end of a transaction step does not depend on where in its primitive the sequencer stood. -/
theorem State.finishStep_atPstep (k : Nat) (s : State) : (s.atPstep k).finishStep = s.finishStep := by
  cases h : sendsAddress s.seq.cmdk s.seq.tstep with
  | false =>
    rw [State.finishStep_of_not_sendsAddress h, State.finishStep_of_not_sendsAddress (s := s.atPstep k) h,
      captureAtEnd_atPstep, enterStep_atPstep]
    rfl
  | true =>
    rw [State.finishStep_of_sendsAddress h, State.finishStep_of_sendsAddress (s := s.atPstep k) h, enterStep_atPstep]
    exact congrArg (ite _ · _) (enterStep_atPstep k _ s.recordDeviceNotFound)

/-- The sequencer moves on to the next operation of the primitive, or the transaction step ends (R28). -/
theorem State.advance_atPstep {p : PrimSel} (hp : s.seq.prim = p) (k : Nat) :
    (s.atPstep k).advance = if k + 1 < primLength p then s.atPstep (k + 1) else s.finishStep := by
  subst hp
  rw [← finishStep_atPstep k s]
  rfl

/-- The engine step of one operation of a primitive goes on to the next one, or ends the transaction step. -/
theorem State.engineStep_atPstep {p : PrimSel} {k : Nat} {op : LineOp} (hs : s.inPrim p) (hk : k ≠ 0 ∨ p ≠ .rdbyte)
    (hop : (primOps p s.sr)[k]? = some op) :
    (s.atPstep k).engineStep = .next (if k + 1 < primLength p then (s.performIn p op).atPstep (k + 1)
      else (s.performIn p op).finishStep) := by
  obtain ⟨hl, hp, ht⟩ := hs
  have hn : engineNext (s.atPstep k).seq (s.atPstep k).sr = some (.perform op) := by
    simp [engineNext, State.atPstep, ht, hp, primOp_eq_getElem?, hop]
  rw [State.engineStep_perform (s := s.atPstep k) hl hn, storeSample_atPstep hp hk,
    advance_atPstep (by rw [performIn_seq, hp])]

/-- The engine runs the rest of a primitive, from any index but the first of `RDBYTE`, operation by operation. -/
theorem State.engineSteps_atPstep {p : PrimSel} {k : Nat} (hs : s.inPrim p) (hk : k ≠ 0 ∨ p ≠ .rdbyte)
    (hlt : k < primLength p) :
    engineSteps (primLength p - k) (s.atPstep k) =
      .next (((primOps p s.sr).drop k).foldl (State.performIn p) s).finishStep := by
  obtain ⟨n, hn⟩ : ∃ n, primLength p - k = n := ⟨_, rfl⟩
  induction n generalizing s k with
  | zero => omega
  | succ n ih =>
    have hlt' : k < (primOps p s.sr).length := by simpa using hlt
    have hstep := State.engineStep_atPstep hs hk (List.getElem?_eq_getElem hlt')
    rw [hn, engineSteps_succ hstep, List.drop_eq_getElem_cons hlt', List.foldl_cons]
    split
    · next hmore =>
      have hrest := ih (State.performIn_inPrim hs (primOps p s.sr)[k]) (.inl (Nat.succ_ne_zero k)) hmore (by omega)
      rw [← show primLength p - (k + 1) = n by omega, hrest, primOps_performIn]
    · next hlast =>
      rw [show n = 0 by omega, List.drop_eq_nil_of_le (by simp; omega)]
      rfl

/-- The first operation of `RDBYTE`, after which `SR` is cleared (R105). -/
theorem State.engineStep_rdbyte_first (hs : s.inPrim .rdbyte) (hstart : s.seq.pstep = 0) :
    s.engineStep = .next (((s.perform (.setd high)).loadSr 0#8).atPstep 1) := by
  obtain ⟨hl, hp, ht⟩ := hs
  have hn : engineNext s.seq s.sr = some (.perform (.setd high)) := by
    simp [engineNext, ht, hp, hstart, primOp]
  have hstore : (s.perform (.setd high)).storeSample (.setd high) s.sdaIn =
      ((s.perform (.setd high)).loadSr 0#8).atPstep 0 := by
    have hprim : (s.perform (.setd high)).seq.prim = .rdbyte := hp
    have hpstep : (s.perform (.setd high)).seq.pstep = 0 := hstart
    rw [State.storeSample, hprim]
    simp only [hpstep, reduceCtorEq, if_false, if_true]
    rw [State.atPstep, ← hstart]
    rfl
  rw [State.engineStep_perform hl hn, hstore,
    advance_atPstep (s := (s.perform (.setd high)).loadSr 0#8) (p := .rdbyte) hp, if_pos (by decide)]

/-- The engine runs a primitive from its start to the end of the transaction step that calls it. -/
theorem State.engineSteps_runPrim {p : PrimSel} (hs : s.inPrim p) (hstart : s.seq.pstep = 0) (hne : p ≠ .nothing) :
    engineSteps (primLength p) s = .next (s.runPrim p).finishStep := by
  by_cases hp : p = .rdbyte
  · subst hp
    have hrest := State.engineSteps_atPstep (s := (s.perform (.setd high)).loadSr 0#8) (k := 1) hs (.inl (by decide))
      (by decide)
    rw [State.runPrim_rdbyte_eq_foldl]
    exact (engineSteps_succ (State.engineStep_rdbyte_first hs hstart) 32).trans hrest
  · have hat : s = s.atPstep 0 := by rw [State.atPstep, ← hstart]
    have hpos : 0 < primLength p := by
      cases p with
      | nothing => exact absurd rfl hne
      | start | stop | noack | wrbyte | rdbyte => decide
    have hrun := State.engineSteps_atPstep hs (.inr hp) hpos
    rw [← hat, Nat.sub_zero, List.drop_zero, ← State.runPrim_eq_foldl hp] at hrun
    exact hrun

/-- The primitive move is made exactly at the start of a primitive. -/
theorem State.primitiveAt_eq_some_iff {p : PrimSel} :
    s.primitiveAt = some p ↔ s.inPrim p ∧ s.seq.pstep = 0 ∧ p ≠ .nothing := by
  unfold State.primitiveAt State.inPrim
  constructor
  · intro h
    split at h
    · next hat =>
      obtain ⟨hl, hpstep, hne, ht⟩ := hat
      cases h
      exact ⟨⟨hl, rfl, ht⟩, hpstep, hne⟩
    · cases h
  · rintro ⟨⟨hl, rfl, ht⟩, hpstep, hne⟩
    exact if_pos ⟨hl, hpstep, hne, ht⟩

/-- The primitive move runs the primitive and ends the transaction step (R109). -/
theorem State.primitiveStep_of_primitiveAt {p : PrimSel} (h : s.primitiveAt = some p) :
    s.primitiveStep = .next (s.runPrim p).finishStep := by
  obtain ⟨-, -, hne⟩ := State.primitiveAt_eq_some_iff.mp h
  unfold State.primitiveStep
  simp only [h, decode_prim_code]
  cases p with
  | nothing => exact absurd rfl hne
  | start | stop | noack | wrbyte | rdbyte => rfl

/-- Where no primitive starts the primitive move is an engine step. -/
theorem State.primitiveStep_of_primitiveAt_none (h : s.primitiveAt = none) : s.primitiveStep = s.engineStep := by
  unfold State.primitiveStep
  simp only [h]

/-- A primitive run whole is its line operations one by one. -/
theorem State.primitiveStep_eq_engineSteps {p : PrimSel} (h : s.primitiveAt = some p) :
    s.primitiveStep = engineSteps (primLength p) s := by
  obtain ⟨hs, hstart, hne⟩ := State.primitiveAt_eq_some_iff.mp h
  rw [State.primitiveStep_of_primitiveAt h, State.engineSteps_runPrim hs hstart hne]

/-- What every engine step keeps, the primitive move keeps. -/
theorem State.primitiveStep_keeps {P : State → Prop} (hP : ∀ s t : State, P s → s.engineStep = .next t → P t)
    (hs : P s) (h : s.primitiveStep = .next t) : P t := by
  cases hat : s.primitiveAt with
  | none => exact hP s t hs (by rw [← h, State.primitiveStep_of_primitiveAt_none hat])
  | some p => exact engineSteps_keeps hP hs ((State.primitiveStep_eq_engineSteps hat).symm.trans h)

end Sys2Proof.Machine

open Sys2Proof Sys2Proof.Machine

/-- Settles O34: the operations of each primitive as one list, run by the engine from index to index; `RDBYTE` clears `SR`
after its first. -/
theorem primitiveIsItsLineOperations : Obligations.PrimitiveIsItsLineOperations :=
  fun _ _ h => State.primitiveStep_eq_engineSteps h

end

section
/-!
SUPPORT. The positions of the sequencer (R27): which of them the step tables hold, where one engine step leads, and the
number of steps left before the release.
-/

namespace Sys2Proof

/-- The number of engine steps of a transaction step. -/
def StepKind.length : StepKind → Nat
  | .call p  => Machine.primLength p
  | .delay   => 1
  | .release => 1

end Sys2Proof

namespace Sys2Proof.Machine

variable {s t : State}

/-! ### Positions in the step tables -/

/-- `SEQ` points into the step tables: at a transaction step of the command, in the primitive it calls, at an index below
its length (R27). -/
theorem engineNext_isSome_iff {q : Seq} {v : BitVec 8} :
    (engineNext q v).isSome = true ↔
      ∃ kind, stepTable q.cmdk q.tstep = some kind ∧ q.prim = stepPrim kind ∧ q.pstep < kind.length := by
  unfold engineNext
  cases ht : stepTable q.cmdk q.tstep with
  | none => simp
  | some kind =>
    cases kind with
    | delay | release =>
      simp only [Option.some.injEq, exists_eq_left', stepPrim, StepKind.length, Nat.lt_one_iff]
      split <;> simp_all
    | call p =>
      simp only [Option.some.injEq, exists_eq_left', stepPrim, StepKind.length]
      split <;> simp_all [primOp_isSome]

/-- The engine releases at the release step and nowhere else (R28). -/
theorem stepTable_of_engineNext_release {q : Seq} {v : BitVec 8} (h : engineNext q v = some .release) :
    stepTable q.cmdk q.tstep = some .release := by
  unfold engineNext at h
  cases ht : stepTable q.cmdk q.tstep with
  | none => simp [ht] at h
  | some kind => cases kind <;> simp_all

/-- A line operation belongs to a transaction step that is not the release: the bare delay, or the primitive it calls
(R28). -/
theorem engineNext_perform_cases {q : Seq} {v : BitVec 8} {op : LineOp} (h : engineNext q v = some (.perform op)) :
    (stepTable q.cmdk q.tstep = some .delay ∧ q.prim = .nothing ∧ q.pstep = 0 ∧ op = .dly) ∨
    (∃ p, stepTable q.cmdk q.tstep = some (.call p) ∧ q.prim = p ∧ primOp p v q.pstep = some op) := by
  unfold engineNext at h
  cases ht : stepTable q.cmdk q.tstep with
  | none => simp [ht] at h
  | some kind => cases kind <;> simp_all

/-- The rows of the two step tables (R120, R121). -/
def stepRows : List (CmdK × Nat × StepKind) :=
  [CmdK.wrreg, CmdK.rdreg].flatMap fun k => (List.range 14).filterMap fun n => (stepTable k n).map fun kind => (k, n, kind)

theorem mem_stepRows {k : CmdK} {n : Nat} {kind : StepKind} (h : stepTable k n = some kind) : (k, n, kind) ∈ stepRows := by
  unfold stepTable at h
  split at h <;> cases h <;> decide

/-- The tables are closed: the next step of a step that is not the release is a step (R120, R121). -/
theorem stepTable_succ {k : CmdK} {n : Nat} {kind : StepKind} (h : stepTable k n = some kind) (hne : kind ≠ .release) :
    ∃ kind', stepTable k (n + 1) = some kind' := by
  have hrows : ∀ row ∈ stepRows, row.2.2 ≠ .release → (stepTable row.1 (row.2.1 + 1)).isSome = true := by decide
  exact Option.isSome_iff_exists.mp (hrows _ (mem_stepRows h) hne)

/-- Entering a step of the tables moves the sequencer to its start; only `SR` may change beside it (R28). -/
theorem State.enterStep_of_stepTable {n : Nat} {kind : StepKind} (h : stepTable s.seq.cmdk n = some kind) :
    ∃ v, s.enterStep n = { s with seq := ⟨s.seq.cmdk, n, stepPrim kind, 0⟩, sr := v } := by
  unfold State.enterStep
  simp only [h]
  exact ⟨_, rfl⟩

theorem State.captureAtEnd_seq (k : CmdK) (n : Nat) (s : State) : (s.captureAtEnd k n).seq = s.seq := by
  unfold State.captureAtEnd
  split <;> rfl

/-- Where the end of a transaction step leads: to the next step after its capture, or, after an address byte not
acknowledged, to the final `STOP` with the failure recorded (R122, R123). -/
theorem State.finishStep_cases {kind : StepKind} (h : stepTable s.seq.cmdk s.seq.tstep = some kind)
    (hne : kind ≠ .release) :
    (∃ kind' v, stepTable s.seq.cmdk (s.seq.tstep + 1) = some kind' ∧
      s.finishStep = { s.captureAtEnd s.seq.cmdk s.seq.tstep with
        seq := ⟨s.seq.cmdk, s.seq.tstep + 1, stepPrim kind', 0⟩, sr := v }) ∨
    (sendsAddress s.seq.cmdk s.seq.tstep = true ∧ stepTable s.seq.cmdk (finalStop s.seq.cmdk) = some (.call .stop) ∧
      s.finishStep = { s with seq := ⟨s.seq.cmdk, finalStop s.seq.cmdk, .stop, 0⟩, fail := true }) := by
  obtain ⟨kind', hnext⟩ := stepTable_succ h hne
  have hgo : ∃ v, (s.captureAtEnd s.seq.cmdk s.seq.tstep).enterStep (s.seq.tstep + 1) =
      { s.captureAtEnd s.seq.cmdk s.seq.tstep with
        seq := ⟨s.seq.cmdk, s.seq.tstep + 1, stepPrim kind', 0⟩, sr := v } := by
    obtain ⟨v, hv⟩ := State.enterStep_of_stepTable (s := s.captureAtEnd s.seq.cmdk s.seq.tstep) (n := s.seq.tstep + 1)
      (kind := kind') (by rw [captureAtEnd_seq]; exact hnext)
    exact ⟨v, by rw [hv, captureAtEnd_seq]⟩
  obtain ⟨v, hv⟩ := hgo
  cases haddr : sendsAddress s.seq.cmdk s.seq.tstep with
  | false => exact .inl ⟨kind', v, hnext, by rw [State.finishStep_of_not_sendsAddress haddr, hv]⟩
  | true =>
    by_cases hack : s.ack = true
    · obtain ⟨-, -, hstop⟩ := stepTable_of_sendsAddress haddr
      refine .inr ⟨rfl, hstop, ?_⟩
      rw [State.finishStep_of_sendsAddress haddr, if_pos hack,
        State.enterStep_of_ne_wrbyte (s := s.recordDeviceNotFound) hstop (by decide)]
      rfl
    · refine .inl ⟨kind', v, hnext, ?_⟩
      rw [State.finishStep_of_sendsAddress haddr, if_neg hack, ← hv, captureAtEnd_of_sendsAddress s haddr]

/-! ### One line operation of the engine -/

/-- Everything an engine step that performs a line operation can do: go on within the transaction step, end it and go on to
the next, or end an address byte that was not acknowledged (R28, R122, R123). -/
inductive State.LineStep (s : State) (op : LineOp) : State → Prop
  | within (kind : StepKind) (v : BitVec 8) (a : Level)
      (ht : stepTable s.seq.cmdk s.seq.tstep = some kind) (hp : s.seq.prim = stepPrim kind)
      (hlt : s.seq.pstep + 1 < kind.length) (hv : s.seq.prim ≠ .rdbyte → v = s.sr) :
      LineStep s op { s.perform op with sr := v, ack := a, seq := { s.seq with pstep := s.seq.pstep + 1 } }
  | next (kind kind' : StepKind) (v : BitVec 8) (a : Level) (r : BitVec 8) (w : Bool)
      (ht : stepTable s.seq.cmdk s.seq.tstep = some kind) (hp : s.seq.prim = stepPrim kind) (hne : kind ≠ .release)
      (hlast : s.seq.pstep + 1 = kind.length) (ht' : stepTable s.seq.cmdk (s.seq.tstep + 1) = some kind')
      (hw : w = s.wstat ∨ (s.seq.cmdk = .wrreg ∧ s.seq.tstep = 5)) :
      LineStep s op { s.perform op with
        sr := v, ack := a, res := r, wstat := w, seq := ⟨s.seq.cmdk, s.seq.tstep + 1, stepPrim kind', 0⟩ }
  | nack (v : BitVec 8) (a : Level)
      (haddr : sendsAddress s.seq.cmdk s.seq.tstep = true) (hp : s.seq.prim = .wrbyte)
      (hlast : s.seq.pstep + 1 = primLength .wrbyte) :
      LineStep s op { s.perform op with
        sr := v, ack := a, fail := true, seq := ⟨s.seq.cmdk, finalStop s.seq.cmdk, .stop, 0⟩ }

/-- A sample goes to `ACK` or `SR`, and only `RDBYTE` writes `SR` (R104, R105). -/
theorem State.storeSample_eq (op : LineOp) (r : Level) (s : State) :
    ∃ v a, s.storeSample op r = { s with sr := v, ack := a } ∧ (s.seq.prim ≠ .rdbyte → v = s.sr) := by
  unfold State.storeSample
  cases hp : s.seq.prim with
  | nothing | start | stop | noack => exact ⟨s.sr, s.ack, rfl, fun _ => rfl⟩
  | wrbyte =>
    dsimp only
    split
    · exact ⟨s.sr, r, rfl, fun _ => rfl⟩
    · exact ⟨s.sr, s.ack, rfl, fun _ => rfl⟩
  | rdbyte =>
    dsimp only
    split
    · exact ⟨_, s.ack, rfl, fun h => absurd rfl h⟩
    · split
      · exact ⟨0#8, s.ack, rfl, fun h => absurd rfl h⟩
      · exact ⟨s.sr, s.ack, rfl, fun _ => rfl⟩

/-- What is captured is the write status or the result byte, and the write status only after the data byte (R120, R121). -/
theorem State.captureAtEnd_eq (k : CmdK) (n : Nat) (s : State) :
    ∃ r w, s.captureAtEnd k n = { s with res := r, wstat := w } ∧ (w = s.wstat ∨ (k = .wrreg ∧ n = 5)) := by
  unfold State.captureAtEnd
  split
  · exact ⟨s.res, s.ack, rfl, .inr ⟨rfl, rfl⟩⟩
  · exact ⟨s.sr, s.wstat, rfl, .inl rfl⟩
  · exact ⟨s.res, s.wstat, rfl, .inl rfl⟩

/-- The position of a line operation: a transaction step that is not the release, in the primitive it calls. -/
theorem stepTable_of_engineNext_perform {q : Seq} {v : BitVec 8} {op : LineOp} (h : engineNext q v = some (.perform op)) :
    ∃ kind, stepTable q.cmdk q.tstep = some kind ∧ kind ≠ .release ∧ q.prim = stepPrim kind ∧
      q.pstep < kind.length := by
  obtain ⟨kind, ht, hp, hlt⟩ := engineNext_isSome_iff.mp (by rw [h]; rfl)
  refine ⟨kind, ht, ?_, hp, hlt⟩
  rintro rfl
  obtain ⟨ht', -⟩ | ⟨p, ht', -⟩ := engineNext_perform_cases h <;> cases ht.symm.trans ht'

/-- The engine step of a line operation is a `LineStep`. -/
theorem State.lineStep_of_engineNext {op : LineOp} (h : engineNext s.seq s.sr = some (.perform op)) :
    s.LineStep op ((s.perform op).storeSample op s.sdaIn).advance := by
  obtain ⟨kind, ht, hne, hp, hlt⟩ := stepTable_of_engineNext_perform h
  obtain ⟨v, a, hstore, hv⟩ := (s.perform op).storeSample_eq op s.sdaIn
  obtain ⟨u, hu⟩ : ∃ u, u = { s.perform op with sr := v, ack := a } := ⟨_, rfl⟩
  have hseq : u.seq = s.seq := by rw [hu]; rfl
  have hlength : kind.length = max 1 (primLength s.seq.prim) := by
    rw [hp]
    have hrows : ∀ row ∈ stepRows, row.2.2.length = max 1 (primLength (stepPrim row.2.2)) := by decide
    exact hrows _ (mem_stepRows ht)
  rw [hstore, ← hu, State.advance, hseq]
  split
  · next hmore =>
    rw [hu]
    exact .within kind v a ht hp (by omega) hv
  · next hlast =>
    have hlast : s.seq.pstep + 1 = kind.length := by omega
    rcases State.finishStep_cases (s := u) (hseq ▸ ht) hne with ⟨kind', v', ht', hfin⟩ | ⟨haddr, hstop, hfin⟩
    · obtain ⟨r, w, hcap, hw⟩ := u.captureAtEnd_eq u.seq.cmdk u.seq.tstep
      rw [hfin, hcap, hu]
      rw [hu] at ht' hw
      exact .next kind kind' v' a r w ht hp hne hlast ht' hw
    · rw [hfin, hu]
      rw [hseq] at haddr
      obtain ⟨hcall, -, -⟩ := stepTable_of_sendsAddress haddr
      cases ht.symm.trans hcall
      exact .nack v a haddr hp hlast

/-- Everything an engine step that goes on can do: nothing while the lock is free, the release, or a line operation. -/
theorem State.engineStep_lineStep (h : s.engineStep = .next t) :
    (s.lock = false ∧ t = s) ∨
    (s.lock = true ∧ stepTable s.seq.cmdk s.seq.tstep = some .release ∧ t = s.release) ∨
    (s.lock = true ∧ ∃ op, engineNext s.seq s.sr = some (.perform op) ∧ s.LineStep op t) := by
  obtain hfree | ⟨hl, hn, rfl⟩ | ⟨hl, op, hn, rfl⟩ := State.engineStep_cases h
  · exact .inl hfree
  · exact .inr (.inl ⟨hl, stepTable_of_engineNext_release hn, rfl⟩)
  · exact .inr (.inr ⟨hl, op, hn, State.lineStep_of_engineNext hn⟩)

end Sys2Proof.Machine
end

section
/-!
SUPPORT. The engine from any position of the step tables to its release (R28, R129): the number of steps that are left
falls with every engine step.
-/

namespace Sys2Proof.Machine

variable {s t : State}

theorem State.seqLegal_of_locked (hl : s.lock = true) : s.seqLegal = (engineNext s.seq s.sr).isSome := by
  simp [State.seqLegal, hl]

theorem State.seqLegal_of_free (hl : s.lock = false) : s.seqLegal = decide (s.seq = Seq.idle) := by
  simp [State.seqLegal, hl]

/-- A position at the start of a transaction step is in the tables. -/
theorem engineNext_start_isSome {k : CmdK} {n : Nat} {kind : StepKind} (v : BitVec 8) (h : stepTable k n = some kind) :
    (engineNext ⟨k, n, stepPrim kind, 0⟩ v).isSome = true := by
  have hpos : 0 < kind.length := by
    have hrows : ∀ row ∈ stepRows, 0 < row.2.2.length := by decide
    exact hrows _ (mem_stepRows h)
  exact engineNext_isSome_iff.mpr ⟨kind, h, rfl, hpos⟩

/-- A line operation of the engine leads to a position of the step tables. -/
theorem State.LineStep.engineNext_isSome {op : LineOp} (h : s.LineStep op t) : (engineNext t.seq t.sr).isSome = true := by
  cases h with
  | within kind v a ht hp hlt hv => exact engineNext_isSome_iff.mpr ⟨kind, ht, hp, hlt⟩
  | next kind kind' v a r w ht hp hne hlast ht' hw => exact engineNext_start_isSome _ ht'
  | nack v a haddr hp hlast =>
    obtain ⟨-, -, hstop⟩ := stepTable_of_sendsAddress haddr
    exact engineNext_start_isSome _ hstop

theorem State.LineStep.lock_eq {op : LineOp} (h : s.LineStep op t) : t.lock = s.lock := by
  cases h <;> rfl

/-! ### The steps that are left -/

/-- The number of engine steps from the start of a transaction step to the end of the release, when every later step is
run. -/
def stepsFrom (k : CmdK) (n : Nat) : Nat :=
  ((stepRows.filter fun row => row.1 = k ∧ n ≤ row.2.1).map fun row => row.2.2.length).sum

/-- The number of engine steps that are left, when every later transaction step is run. -/
def State.stepsLeft (s : State) : Nat := stepsFrom s.seq.cmdk s.seq.tstep - s.seq.pstep

theorem stepsFrom_eq {k : CmdK} {n : Nat} {kind : StepKind} (h : stepTable k n = some kind) :
    stepsFrom k n = kind.length + stepsFrom k (n + 1) := by
  have hrows : ∀ row ∈ stepRows, stepsFrom row.1 row.2.1 = row.2.2.length + stepsFrom row.1 (row.2.1 + 1) := by decide
  exact hrows _ (mem_stepRows h)

/-- The longest run is that of an `RDREG` from its start: 180 operations and the release (R129). -/
theorem stepsFrom_le {k : CmdK} {n : Nat} {kind : StepKind} (h : stepTable k n = some kind) : stepsFrom k n ≤ 181 := by
  have hrows : ∀ row ∈ stepRows, stepsFrom row.1 row.2.1 ≤ 181 := by decide
  exact hrows _ (mem_stepRows h)

/-- The branch to the final `STOP` skips steps and adds none. -/
theorem stepsFrom_finalStop_le {k : CmdK} {n : Nat} (h : sendsAddress k n = true) :
    stepsFrom k (finalStop k) ≤ stepsFrom k (n + 1) := by
  obtain ⟨rfl, rfl⟩ | ⟨rfl, rfl⟩ | ⟨rfl, rfl⟩ := sendsAddress_iff.mp h <;> decide

theorem State.LineStep.stepsLeft_lt {op : LineOp} (h : s.LineStep op t) : t.stepsLeft < s.stepsLeft := by
  cases h with
  | within kind v a ht hp hlt hv =>
    have := stepsFrom_eq ht
    simp only [State.stepsLeft]
    omega
  | next kind kind' v a r w ht hp hne hlast ht' hw =>
    have := stepsFrom_eq ht
    simp only [State.stepsLeft]
    omega
  | nack v a haddr hp hlast =>
    obtain ⟨hcall, -, -⟩ := stepTable_of_sendsAddress haddr
    have := stepsFrom_eq hcall
    have := stepsFrom_finalStop_le haddr
    simp only [State.stepsLeft, StepKind.length] at *
    omega

/-- A legal position has a next engine step: the release, or a line operation. -/
theorem State.exists_engineStep (hl : s.lock = true) (hlegal : s.seqLegal = true) :
    s.engineStep = .next s.release ∨ ∃ op t, s.engineStep = .next t ∧ s.LineStep op t := by
  rw [State.seqLegal_of_locked hl] at hlegal
  obtain ⟨x, hx⟩ := Option.isSome_iff_exists.mp hlegal
  cases x with
  | release => exact .inl (State.engineStep_release hl hx)
  | perform op => exact .inr ⟨op, _, State.engineStep_perform hl hx, State.lineStep_of_engineNext hx⟩

theorem State.stepsLeft_pos (hl : s.lock = true) (hlegal : s.seqLegal = true) : 0 < s.stepsLeft := by
  obtain ⟨kind, ht, -, hlt⟩ := engineNext_isSome_iff.mp (State.seqLegal_of_locked hl ▸ hlegal)
  have := stepsFrom_eq ht
  simp only [State.stepsLeft]
  omega

/-- By induction on the number of steps that are left. -/
theorem State.engine_reaches_release {n : Nat} (hl : s.lock = true) (hlegal : s.seqLegal = true) (hn : s.stepsLeft ≤ n) :
    ∃ m t, m ≤ n ∧ engineSteps m s = .next t ∧ t.lock = false ∧ t.seq = Seq.idle := by
  induction n generalizing s with
  | zero =>
    have := State.stepsLeft_pos hl hlegal
    omega
  | succ n ih =>
    obtain hrelease | ⟨op, u, hstep, hline⟩ := State.exists_engineStep hl hlegal
    · exact ⟨1, s.release, by omega, engineSteps_one hrelease, rfl, rfl⟩
    · have hlu : u.lock = true := hline.lock_eq.trans hl
      have hlegalu : u.seqLegal = true := (State.seqLegal_of_locked hlu).trans hline.engineNext_isSome
      have hlt := hline.stepsLeft_lt
      obtain ⟨m, t, hm, hrun, hfree⟩ := ih hlu hlegalu (by omega)
      exact ⟨m + 1, t, by omega, by rw [engineSteps_succ hstep, hrun], hfree⟩

end Sys2Proof.Machine

open Sys2Proof Sys2Proof.Machine

/-- Settles O36: the steps that are left fall with every engine step, and are at most those of a whole `RDREG`. -/
theorem holderReachesRelease : Obligations.HolderReachesRelease := by
  intro s hl hlegal
  obtain ⟨kind, ht, -, -⟩ := engineNext_isSome_iff.mp (State.seqLegal_of_locked hl ▸ hlegal)
  have hle : s.stepsLeft ≤ 181 := (Nat.sub_le ..).trans (stepsFrom_le ht)
  exact State.engine_reaches_release hl hlegal hle

end

section
/-!
SUPPORT. The engine over a whole transaction (R28, R29): each transaction step as one run, and the pseudocode of both
commands as the runs one after another.
-/

namespace Sys2Proof.Machine

variable {s t u : State}

/-! ### Runs -/

/-- Some number of engine steps ends at a state. -/
def State.Reaches (s t : State) : Prop := ∃ n, s.reachesBy n t

theorem State.Reaches.trans (hst : s.Reaches t) (htu : t.Reaches u) : s.Reaches u := by
  obtain ⟨m, hm⟩ := hst
  obtain ⟨n, hn⟩ := htu
  exact ⟨m + n, (engineSteps_add hm n).trans hn⟩

/-- A line operation adds one token (R10). -/
theorem State.LineStep.trace_length {op : LineOp} (h : s.LineStep op t) : t.trace.length = s.trace.length + 1 := by
  cases h <;> simp

/-- While the lock is held the number of engine steps is that of the tokens added: a free lock is not taken again. -/
theorem trace_length_of_engineSteps {n : Nat} (h : engineSteps n s = .next t) (hl : t.lock = true) :
    t.trace.length = s.trace.length + n ∧ s.lock = true := by
  induction n generalizing s with
  | zero =>
    cases h
    exact ⟨rfl, hl⟩
  | succ n ih =>
    rw [engineSteps] at h
    cases hstep : s.engineStep with
    | next v =>
      obtain ⟨hlen, hlv⟩ := ih (by simpa only [hstep] using h)
      obtain ⟨hfree, rfl⟩ | ⟨-, -, rfl⟩ | ⟨hls, op, -, hline⟩ := State.engineStep_lineStep hstep
      · cases hfree.symm.trans hlv
      · cases hlv
      · exact ⟨by rw [hlen, hline.trace_length]; omega, hls⟩
    | fault r => simp only [hstep] at h; cases h
    | refused r => simp only [hstep] at h; cases h

/-! ### Transaction steps -/

/-- The state with the sequencer at a position. -/
def State.atSeq (q : Seq) (s : State) : State := { s with seq := q }

/-- The primitives do not look at the position of the sequencer. -/
theorem State.runPrim_atSeq (p : PrimSel) (q : Seq) (s : State) : (s.atSeq q).runPrim p = (s.runPrim p).atSeq q := by
  cases p <;> rfl

/-- A transaction step that calls a primitive. -/
theorem State.reaches_of_call {k : CmdK} {n : Nat} {p : PrimSel} (hl : s.lock = true)
    (ht : stepTable k n = some (.call p)) (hne : p ≠ .nothing) :
    (s.atSeq ⟨k, n, p, 0⟩).Reaches ((s.runPrim p).atSeq ⟨k, n, p, 0⟩).finishStep := by
  have hrun := State.engineSteps_runPrim (s := s.atSeq ⟨k, n, p, 0⟩) ⟨hl, rfl, ht⟩ rfl hne
  rw [runPrim_atSeq] at hrun
  exact ⟨primLength p, hrun⟩

/-- A bare delay. -/
theorem State.reaches_of_delay {k : CmdK} {n : Nat} (hl : s.lock = true) (ht : stepTable k n = some .delay) :
    (s.atSeq ⟨k, n, .nothing, 0⟩).Reaches ((s.perform .dly).atSeq ⟨k, n, .nothing, 0⟩).finishStep := by
  have hn : engineNext ⟨k, n, .nothing, 0⟩ s.sr = some (.perform .dly) := by simp [engineNext, ht]
  exact ⟨1, engineSteps_one (State.engineStep_perform (s := s.atSeq ⟨k, n, .nothing, 0⟩) hl hn)⟩

/-- The end of an address byte not acknowledged: the failure is recorded and the final `STOP` comes next (R122, R123). -/
theorem State.finishStep_atSeq_nack {k : CmdK} {n : Nat} (ha : sendsAddress k n = true) (hack : s.ack = true) :
    (s.atSeq ⟨k, n, .wrbyte, 0⟩).finishStep = s.recordDeviceNotFound.atSeq ⟨k, finalStop k, .stop, 0⟩ := by
  obtain ⟨-, -, hstop⟩ := stepTable_of_sendsAddress ha
  rw [State.finishStep_of_sendsAddress (s := s.atSeq ⟨k, n, .wrbyte, 0⟩) ha]
  exact (if_pos hack).trans
    (State.enterStep_of_ne_wrbyte (s := (s.atSeq ⟨k, n, .wrbyte, 0⟩).recordDeviceNotFound) hstop (by decide))

/-- The end of an acknowledged address byte: the bare delay after it comes next (R122, R123). -/
theorem State.finishStep_atSeq_ack {k : CmdK} {n : Nat} (ha : sendsAddress k n = true) (hack : s.ack = false) :
    (s.atSeq ⟨k, n, .wrbyte, 0⟩).finishStep = s.atSeq ⟨k, n + 1, .nothing, 0⟩ := by
  obtain ⟨-, hdelay, -⟩ := stepTable_of_sendsAddress ha
  rw [State.finishStep_of_sendsAddress (s := s.atSeq ⟨k, n, .wrbyte, 0⟩) ha]
  exact (if_neg (by simp [State.atSeq, hack])).trans
    (State.enterStep_of_ne_wrbyte (s := s.atSeq ⟨k, n, .wrbyte, 0⟩) hdelay (by decide))

theorem State.ifAcknowledged_of_nack (body : State → State) (h : s.ack = true) :
    s.ifAcknowledged body = s.recordDeviceNotFound := if_pos h

theorem State.ifAcknowledged_of_ack (body : State → State) (h : s.ack = false) : s.ifAcknowledged body = body s :=
  if_neg (by simp [h])

/-! ### The two commands -/

/-- The steps of `WRREG` after its acknowledged address byte, up to the final `STOP` (R120). -/
theorem State.sendRegisterAndData_reaches (hl : s.lock = true) :
    (s.atSeq ⟨.wrreg, 2, .nothing, 0⟩).Reaches (s.sendRegisterAndData.atSeq ⟨.wrreg, 6, .stop, 0⟩) := by
  have hwait : (s.atSeq ⟨.wrreg, 2, .nothing, 0⟩).Reaches
      (((s.perform .dly).loadSr s.reg).atSeq ⟨.wrreg, 3, .wrbyte, 0⟩) := State.reaches_of_delay hl rfl
  obtain ⟨v, hv⟩ : ∃ v, v = (s.perform .dly).callWrbyte s.reg := ⟨_, rfl⟩
  have hlv : v.lock = true := by rw [hv]; exact hl
  have hdat : v.dat = s.dat := by rw [hv]; rfl
  have hreg : (s.atSeq ⟨.wrreg, 2, .nothing, 0⟩).Reaches (v.atSeq ⟨.wrreg, 4, .nothing, 0⟩) := by
    rw [hv]
    exact hwait.trans (State.reaches_of_call hl rfl (by decide))
  have hwait' : (v.atSeq ⟨.wrreg, 4, .nothing, 0⟩).Reaches
      (((v.perform .dly).loadSr v.dat).atSeq ⟨.wrreg, 5, .wrbyte, 0⟩) := State.reaches_of_delay hlv rfl
  rw [State.sendRegisterAndData, ← hv, ← hdat]
  exact hreg.trans (hwait'.trans (State.reaches_of_call hlv rfl (by decide)))

/-- The steps of `RDREG` after its second acknowledged address byte, up to the final `STOP` (R121). -/
theorem State.receiveData_reaches (hl : s.lock = true) :
    (s.atSeq ⟨.rdreg, 9, .nothing, 0⟩).Reaches (s.receiveData.atSeq ⟨.rdreg, 12, .stop, 0⟩) := by
  have hwait : (s.atSeq ⟨.rdreg, 9, .nothing, 0⟩).Reaches ((s.perform .dly).atSeq ⟨.rdreg, 10, .rdbyte, 0⟩) :=
    State.reaches_of_delay hl rfl
  have hbyte : ((s.perform .dly).atSeq ⟨.rdreg, 10, .rdbyte, 0⟩).Reaches
      ((s.perform .dly).runRdbyte.captureResult.atSeq ⟨.rdreg, 11, .noack, 0⟩) :=
    State.reaches_of_call hl rfl (by decide)
  exact hwait.trans (hbyte.trans (State.reaches_of_call hl rfl (by decide)))

/-- The steps of `RDREG` after its first acknowledged address byte, up to the final `STOP` (R121). -/
theorem State.selectAndRead_reaches (hl : s.lock = true) :
    (s.atSeq ⟨.rdreg, 2, .nothing, 0⟩).Reaches (s.selectAndRead.atSeq ⟨.rdreg, 12, .stop, 0⟩) := by
  have hwait : (s.atSeq ⟨.rdreg, 2, .nothing, 0⟩).Reaches
      (((s.perform .dly).loadSr s.reg).atSeq ⟨.rdreg, 3, .wrbyte, 0⟩) := State.reaches_of_delay hl rfl
  obtain ⟨v, hv⟩ : ∃ v, v = (s.perform .dly).callWrbyte s.reg := ⟨_, rfl⟩
  have hlv : v.lock = true := by rw [hv]; exact hl
  have hdev : v.dev = s.dev := by rw [hv]; rfl
  have hreg : (s.atSeq ⟨.rdreg, 2, .nothing, 0⟩).Reaches (v.atSeq ⟨.rdreg, 4, .nothing, 0⟩) := by
    rw [hv]
    exact hwait.trans (State.reaches_of_call hl rfl (by decide))
  have hframe : (v.atSeq ⟨.rdreg, 4, .nothing, 0⟩).Reaches
      ((v.perform .dly).runStop.atSeq ⟨.rdreg, 6, .nothing, 0⟩) :=
    (State.reaches_of_delay hlv rfl).trans (State.reaches_of_call (s := v.perform .dly) hlv rfl (by decide))
  have hstart : ((v.perform .dly).runStop.atSeq ⟨.rdreg, 6, .nothing, 0⟩).Reaches
      ((((v.perform .dly).runStop.perform .dly).runStart.loadSr (addressByte v.dev Config.readBit)).atSeq
        ⟨.rdreg, 8, .wrbyte, 0⟩) :=
    (State.reaches_of_delay (s := (v.perform .dly).runStop) hlv rfl).trans
      (State.reaches_of_call (s := (v.perform .dly).runStop.perform .dly) hlv rfl (by decide))
  obtain ⟨w, hw⟩ : ∃ w, w = ((v.perform .dly).runStop.perform .dly).runStart.callWrbyte
    (addressByte v.dev Config.readBit) := ⟨_, rfl⟩
  have hlw : w.lock = true := by rw [hw]; exact hlv
  have haddr : (s.atSeq ⟨.rdreg, 2, .nothing, 0⟩).Reaches (w.atSeq ⟨.rdreg, 8, .wrbyte, 0⟩).finishStep := by
    rw [hw]
    exact hreg.trans (hframe.trans (hstart.trans (State.reaches_of_call hlv rfl (by decide))))
  rw [State.selectAndRead, ← hv, ← hdev, ← hw]
  refine haddr.trans ?_
  cases hack : w.ack with
  | true =>
    rw [finishStep_atSeq_nack rfl hack, ifAcknowledged_of_nack _ hack]
    exact ⟨0, rfl⟩
  | false =>
    rw [finishStep_atSeq_ack rfl hack, ifAcknowledged_of_ack _ hack]
    exact receiveData_reaches hlw

/-- What neither the record of a failure nor the acknowledged branch writes, the branch leaves as it was. -/
theorem State.ifAcknowledged_keeps {α : Type} {f : State → α} {body : State → State}
    (hrecord : ∀ v : State, f v.recordDeviceNotFound = f v) (hbody : ∀ v : State, f (body v) = f v) (s : State) :
    f (s.ifAcknowledged body) = f s := by
  cases hack : s.ack with
  | true => rw [ifAcknowledged_of_nack _ hack, hrecord]
  | false => rw [ifAcknowledged_of_ack _ hack, hbody]

theorem State.selectAndRead_lock (s : State) : s.selectAndRead.lock = s.lock :=
  ifAcknowledged_keeps (f := State.lock) (body := State.receiveData) (fun _ => rfl) (fun _ => rfl) _

theorem State.selectAndRead_seq (s : State) : s.selectAndRead.seq = s.seq :=
  ifAcknowledged_keeps (f := State.seq) (body := State.receiveData) (fun _ => rfl) (fun _ => rfl) _

theorem State.writeTransaction_seq (s : State) : s.writeTransaction.seq = s.seq :=
  ifAcknowledged_keeps (f := State.seq) (body := State.sendRegisterAndData) (fun _ => rfl) (fun _ => rfl) _

theorem State.readTransaction_seq (s : State) : s.readTransaction.seq = s.seq :=
  ifAcknowledged_keeps (f := State.seq) (fun _ => rfl) selectAndRead_seq _

theorem State.writeTransaction_lock (s : State) : s.writeTransaction.lock = s.lock :=
  ifAcknowledged_keeps (f := State.lock) (body := State.sendRegisterAndData) (fun _ => rfl) (fun _ => rfl) _

theorem State.readTransaction_lock (s : State) : s.readTransaction.lock = s.lock :=
  ifAcknowledged_keeps (f := State.lock) (fun _ => rfl) selectAndRead_lock _

/-- The engine runs either command from its acquire to the release step, when it runs what follows an acknowledged first
address byte up to the final `STOP` (R120, R121). -/
theorem State.transaction_reaches {k : CmdK} {body : State → State} (hk : k = .wrreg ∨ k = .rdreg)
    (hlock : ∀ v : State, (body v).lock = v.lock)
    (hbody : ∀ v : State, v.lock = true →
      (v.atSeq ⟨k, 2, .nothing, 0⟩).Reaches ((body v).atSeq ⟨k, finalStop k, .stop, 0⟩))
    (hl : s.lock = true) :
    (s.atSeq ⟨k, 0, .start, 0⟩).Reaches
      (((s.runStart.callWrbyte (addressByte s.dev Config.writeBit)).ifAcknowledged body).runStop.atSeq
        ⟨k, finalStop k + 1, .nothing, 0⟩) := by
  have haddrStep : sendsAddress k 1 = true := by obtain rfl | rfl := hk <;> rfl
  obtain ⟨hcall, -, -⟩ := stepTable_of_sendsAddress haddrStep
  have hstart : (s.atSeq ⟨k, 0, .start, 0⟩).Reaches
      ((s.runStart.loadSr (addressByte s.dev Config.writeBit)).atSeq ⟨k, 1, .wrbyte, 0⟩) := by
    obtain rfl | rfl := hk <;> exact State.reaches_of_call hl rfl (by decide)
  obtain ⟨v, hv⟩ : ∃ v, v = s.runStart.callWrbyte (addressByte s.dev Config.writeBit) := ⟨_, rfl⟩
  have hlv : v.lock = true := by rw [hv]; exact hl
  have haddr : (s.atSeq ⟨k, 0, .start, 0⟩).Reaches (v.atSeq ⟨k, 1, .wrbyte, 0⟩).finishStep := by
    rw [hv]
    exact hstart.trans (State.reaches_of_call hl hcall (by decide))
  have hstop {u : State} (hlu : u.lock = true) :
      (u.atSeq ⟨k, finalStop k, .stop, 0⟩).Reaches (u.runStop.atSeq ⟨k, finalStop k + 1, .nothing, 0⟩) := by
    obtain rfl | rfl := hk <;> exact State.reaches_of_call hlu rfl (by decide)
  rw [← hv]
  refine haddr.trans ?_
  cases hack : v.ack with
  | true =>
    rw [finishStep_atSeq_nack haddrStep hack, ifAcknowledged_of_nack _ hack]
    exact hstop hlv
  | false =>
    rw [finishStep_atSeq_ack haddrStep hack, ifAcknowledged_of_ack _ hack]
    exact (hbody v hlv).trans (hstop ((hlock v).trans hlv))

/-- The result word depends on the command of the position alone. -/
theorem State.release_atSeq {q : Seq} (h : q.cmdk = s.seq.cmdk) : (s.atSeq q).release = s.release := by
  have hword : (s.atSeq q).releaseWord = s.releaseWord := by
    unfold State.releaseWord State.atSeq
    rw [← h]
  unfold State.release
  rw [hword]
  rfl

/-- From the release step the engine releases, and the run has one step for each token and one for the release. -/
theorem State.reachesBy_release {k : CmdK} {n : Nat} (hrun : s.Reaches (t.atSeq ⟨k, n, .nothing, 0⟩))
    (hl : t.lock = true) (ht : stepTable k n = some .release) (hk : k = t.seq.cmdk) :
    s.reachesBy (t.release.trace.length - s.trace.length + 1) t.release := by
  obtain ⟨m, hm⟩ := hrun
  obtain ⟨hlen, -⟩ := trace_length_of_engineSteps hm hl
  have hlen : t.release.trace.length = s.trace.length + m := hlen
  have hnext : engineNext ⟨k, n, .nothing, 0⟩ t.sr = some .release := by simp [engineNext, ht]
  have hrelease := State.engineStep_release (s := t.atSeq ⟨k, n, .nothing, 0⟩) hl hnext
  rw [release_atSeq hk] at hrelease
  rw [hlen, Nat.add_sub_cancel_left]
  exact (engineSteps_add hm 1).trans (engineSteps_one hrelease)

end Sys2Proof.Machine

open Sys2Proof Sys2Proof.Machine

/-- Settles O35: the pseudocode of either command as the runs of its transaction steps, and the tokens count the steps. -/
theorem smallStepsRunThePseudocode : Obligations.SmallStepsRunThePseudocode := by
  intro dev reg val s hr hl
  refine ⟨⟨_, exec_wrreg_of_free dev reg val hr hl, ?_⟩, ⟨_, exec_rdreg_of_free dev reg hr hl, ?_⟩⟩
  · exact State.reachesBy_release
      (State.transaction_reaches (s := s.acquire s.issuer .wrreg dev reg val) (.inl rfl) (fun _ => rfl)
        (fun _ => State.sendRegisterAndData_reaches) rfl)
      (State.writeTransaction_lock _) rfl (by rw [State.writeTransaction_seq]; rfl)
  · exact State.reachesBy_release
      (State.transaction_reaches (s := s.acquire s.issuer .rdreg dev reg 0#8) (.inr rfl) State.selectAndRead_lock
        (fun _ => State.selectAndRead_reaches) rfl)
      (State.readTransaction_lock _) rfl (by rw [State.readTransaction_seq]; rfl)

end

section
/-!
SUPPORT. The levels of the latches at each position of the sequencer (R41, R107).
-/

namespace Sys2Proof.Machine

variable {s t : State}

/-! ### The latches -/

/-- The clock latch follows the token of the operation. -/
theorem State.perform_sclOut (op : LineOp) (s : State) : (s.perform op).sclOut = sclAfter (tokenOf op s.sdaIn) s.sclOut := by
  cases op <;> rfl

/-- The data latch follows the token of the operation. -/
theorem State.perform_sdaOut (op : LineOp) (s : State) : (s.perform op).sdaOut = sdaAfter (tokenOf op s.sdaIn) s.sdaOut := by
  cases op <;> rfl

/-- The levels of a position, as a function of the position, `SR` and the latches. -/
def seqLines (q : Seq) (v : BitVec 8) (scl sda : Level) : Bool :=
  match q.prim with
  | .nothing =>
    match q.cmdk, q.tstep with
    | .wrreg, 7  => scl && sda
    | .rdreg, 6  => scl && sda
    | .rdreg, 13 => scl && sda
    | _, _       => scl == low && sda == high
  | p => primLines p v q.pstep scl sda

theorem State.linesLegal_eq (s : State) : s.linesLegal = seqLines s.seq s.sr s.sclOut s.sdaOut := rfl

/-- Within a primitive the levels are those of the index (R41, R107). -/
theorem seqLines_of_prim {q : Seq} {p : PrimSel} (hp : q.prim = p) (hne : p ≠ .nothing) (v : BitVec 8) (scl sda : Level) :
    seqLines q v scl sda = primLines p v q.pstep scl sda := by
  obtain ⟨k, n, p', i⟩ := q
  subst hp
  cases p' with
  | nothing => exact absurd rfl hne
  | start | stop | noack | wrbyte | rdbyte => rfl

/-- Within a primitive each operation leaves the levels of the next index. -/
theorem primLines_succ {p : PrimSel} {v : BitVec 8} {k : Nat} {op : LineOp} {scl sda : Level} (r : Level)
    (hop : primOp p v k = some op) (hk : k + 1 < primLength p) (h : primLines p v k scl sda = true) :
    primLines p v (k + 1) (sclAfter (tokenOf op r) scl) (sdaAfter (tokenOf op r) sda) = true := by
  have hlt : k < primLength p - 1 := by omega
  cases p with
  | nothing => rfl
  | start | stop | noack | wrbyte | rdbyte =>
    simp only [primLength, Nat.reduceSub] at hlt
    interval_cases k <;> cases hop <;> simp_all [primLines, tokenOf, sclAfter, sdaAfter]

/-- The levels a primitive leaves, clock and data (R101 to R105). -/
def exitLevels : PrimSel → Level × Level
  | .nothing => (low, high)
  | .start   => (low, low)
  | .stop    => (high, high)
  | .noack   => (low, low)
  | .wrbyte  => (low, high)
  | .rdbyte  => (low, high)

/-- The last operation of a primitive leaves its exit levels. -/
theorem primLines_last {p : PrimSel} {v : BitVec 8} {k : Nat} {op : LineOp} {scl sda : Level} (r : Level)
    (hop : primOp p v k = some op) (hk : k + 1 = primLength p) (h : primLines p v k scl sda = true) :
    (sclAfter (tokenOf op r) scl, sdaAfter (tokenOf op r) sda) = exitLevels p := by
  obtain rfl : k = primLength p - 1 := by omega
  cases p <;> cases hop <;> simp_all [primLines, primLength, exitLevels, tokenOf, sclAfter, sdaAfter]

/-- The levels a transaction step leaves: those of its primitive, or, at a bare delay, those it was entered with. -/
def stepExit (k : CmdK) (n : Nat) (kind : StepKind) (scl sda : Level) : Bool :=
  match kind with
  | .call p  => decide ((scl, sda) = exitLevels p)
  | .delay   => seqLines ⟨k, n, .nothing, 0⟩ 0#8 scl sda
  | .release => false

/-- The levels at the start of a transaction step do not depend on `SR`. -/
theorem seqLines_start (k : CmdK) (n : Nat) (p : PrimSel) (v : BitVec 8) (scl sda : Level) :
    seqLines ⟨k, n, p, 0⟩ v scl sda = seqLines ⟨k, n, p, 0⟩ 0#8 scl sda := by
  cases p <;> rfl

/-- Each transaction step finds the levels that the one before it leaves (R120, R121). -/
theorem seqLines_of_stepExit {k : CmdK} {n : Nat} {kind kind' : StepKind} {scl sda : Level} (v : BitVec 8)
    (ht : stepTable k n = some kind) (ht' : stepTable k (n + 1) = some kind') (h : stepExit k n kind scl sda = true) :
    seqLines ⟨k, n + 1, stepPrim kind', 0⟩ v scl sda = true := by
  have hrows : ∀ row ∈ stepRows, ∀ scl sda : Level, stepExit row.1 row.2.1 row.2.2 scl sda = true →
      ∀ kind' ∈ stepTable row.1 (row.2.1 + 1),
        seqLines ⟨row.1, row.2.1 + 1, stepPrim kind', 0⟩ 0#8 scl sda = true := by decide
  rw [seqLines_start]
  exact hrows _ (mem_stepRows ht) scl sda h kind' ht'

/-- The end of a transaction step leaves its exit levels. -/
theorem stepExit_of_seqLines {q : Seq} {v : BitVec 8} {op : LineOp} {kind : StepKind} {scl sda : Level} (r : Level)
    (hn : engineNext q v = some (.perform op)) (ht : stepTable q.cmdk q.tstep = some kind)
    (hlast : q.pstep + 1 = kind.length) (h : seqLines q v scl sda = true) :
    stepExit q.cmdk q.tstep kind (sclAfter (tokenOf op r) scl) (sdaAfter (tokenOf op r) sda) = true := by
  obtain ⟨k, n, p, i⟩ := q
  obtain ⟨ht', rfl, rfl, rfl⟩ | ⟨p', ht', rfl, hop⟩ := engineNext_perform_cases hn <;> cases ht.symm.trans ht'
  · exact h
  · refine decide_eq_true (primLines_last r hop hlast ?_)
    cases p with
    | nothing => cases hop
    | start | stop | noack | wrbyte | rdbyte => exact h

/-- A line operation of the engine finds the levels of its position and leaves those of the next (R41). -/
theorem State.LineStep.linesLegal {op : LineOp} (hline : s.LineStep op t)
    (hn : engineNext s.seq s.sr = some (.perform op)) (h : s.linesLegal = true) : t.linesLegal = true := by
  rw [State.linesLegal_eq] at h
  cases hline with
  | within kind v a ht hp hlt hv =>
    obtain ⟨ht', -, hzero, -⟩ | ⟨p, ht', hp', hop⟩ := engineNext_perform_cases hn <;> cases ht.symm.trans ht'
    · simp [StepKind.length] at hlt
    · have hne : p ≠ .nothing := by
        rintro rfl
        cases hop
      rw [seqLines_of_prim hp' hne] at h
      have hsucc := primLines_succ s.sdaIn hop hlt h
      rw [← State.perform_sclOut, ← State.perform_sdaOut] at hsucc
      refine (seqLines_of_prim (q := { s.seq with pstep := s.seq.pstep + 1 }) hp' hne v _ _).trans ?_
      by_cases hrd : p = .rdbyte
      · subst hrd
        exact hsucc
      · rw [hv (by rwa [hp'])]
        exact hsucc
  | next kind kind' v a r w ht hp hne hlast ht' hw =>
    have hexit := stepExit_of_seqLines s.sdaIn hn ht hlast h
    rw [← State.perform_sclOut, ← State.perform_sdaOut] at hexit
    exact seqLines_of_stepExit v ht ht' hexit
  | nack v a haddr hp hlast =>
    obtain ⟨hcall, -, -⟩ := stepTable_of_sendsAddress haddr
    have hexit := stepExit_of_seqLines s.sdaIn hn hcall hlast h
    rw [← State.perform_sclOut, ← State.perform_sdaOut] at hexit
    have hexit : (s.perform op).sclOut = low := congrArg Prod.fst (of_decide_eq_true hexit)
    rw [State.linesLegal_eq]
    exact beq_iff_eq.mpr hexit

end Sys2Proof.Machine
end

section
/-!
SUPPORT. What a step of an agent other than the engine can do (R140 to R145), said once; and what a step keeps, from what
each kind of step keeps.
-/

namespace Sys2Proof.Machine

variable {s t : State}

/-! ### A transaction run whole -/

/-- The two paths of `WRREG` on a registered bus with the lock free (R120). -/
theorem exec_wrreg_paths (dev : BitVec 7) (reg val : BitVec 8) (hr : s.regd = true) (hl : s.lock = false) :
    exec (.wrreg dev reg val) s = .next
      { s.afterTransaction dev reg val false 0x00000100#32 (absentTrace dev) with
        sr := addressByte dev Config.writeBit, ack := high, fail := true, wstat := false } ∨
    ∃ a2 a3, exec (.wrreg dev reg val) s = .next
      { s.afterTransaction dev reg val false (if a3 then 0x00001000#32 else 0x00000000#32)
          (writeTrace dev reg val a2 a3) with
        sr := val, ack := a3, fail := false, wstat := a3 } := by
  obtain ⟨-, hnack, hack, -, -⟩ := wrregWritesOneRegister dev reg val s hr hl
  cases h1 : presentedAfter s (startTrace ++ wrbyteLead (addressByte dev Config.writeBit)) with
  | true => exact .inl (hnack h1)
  | false => exact .inr ⟨_, _, hack h1⟩

/-- The three paths of `RDREG` on a registered bus with the lock free (R121). -/
theorem exec_rdreg_paths (dev : BitVec 7) (reg : BitVec 8) (hr : s.regd = true) (hl : s.lock = false) :
    exec (.rdreg dev reg) s = .next
      { s.afterTransaction dev reg 0#8 true 0x00000100#32 (absentTrace dev) with
        sr := addressByte dev Config.writeBit, ack := high, fail := true, wstat := false } ∨
    (∃ a2, exec (.rdreg dev reg) s = .next
      { s.afterTransaction dev reg 0#8 true 0x00000100#32 (unreadTrace dev reg a2) with
        sr := addressByte dev Config.readBit, ack := high, fail := true, wstat := false }) ∨
    ∃ a2 v, exec (.rdreg dev reg) s = .next
      { s.afterTransaction dev reg 0#8 true (v.setWidth 32) (readTrace dev reg v a2) with
        sr := v, res := v, ack := low, fail := false, wstat := false } := by
  obtain ⟨-, hnack, hnack2, hack, -, -⟩ := rdregReadsOneRegister dev reg s hr hl
  cases h1 : presentedAfter s (startTrace ++ wrbyteLead (addressByte dev Config.writeBit)) with
  | true => exact .inl (hnack h1)
  | false =>
    cases h3 : presentedAfter s (startTrace ++ wrbyteTrace (addressByte dev Config.writeBit) low ++ [Token.t] ++
        wrbyteTrace reg (presentedAfter s (startTrace ++ wrbyteTrace (addressByte dev Config.writeBit) low ++ [Token.t] ++
          wrbyteLead reg)) ++ [Token.t] ++ stopTrace ++ [Token.t] ++ startTrace ++
        wrbyteLead (addressByte dev Config.readBit)) with
    | true => exact .inr (.inl ⟨_, hnack2 h1 h3⟩)
    | false =>
      obtain ⟨v, -, hread, -⟩ := hack h1 h3
      exact .inr (.inr ⟨_, v, hread⟩)

/-- A byte alone is a legal result word (R76). -/
theorem resultWordLegal_byte (v : BitVec 8) : resultWordLegal (v.setWidth 32) = true := by
  rw [← resultWord_read]
  exact resultWordLegal_resultWord _ _ _ fun h => absurd rfl h

/-- What a transaction that runs to its result leaves: the operands in the latches, a legal result word delivered, the lines
and the sequencer idle, the lock free (R127, R143). The flags and data registers are whatever the path makes them. -/
theorem exec_wrreg_completes (dev : BitVec 7) (reg val : BitVec 8) (hr : s.regd = true) (hl : s.lock = false) :
    ∃ rw tr v a f w, resultWordLegal rw = true ∧
      exec (.wrreg dev reg val) s =
        .next { s.afterTransaction dev reg val false rw tr with sr := v, ack := a, fail := f, wstat := w } := by
  obtain h | ⟨a2, a3, h⟩ := exec_wrreg_paths dev reg val hr hl
  · exact ⟨_, _, _, _, _, _, rfl, h⟩
  · refine ⟨_, _, _, _, _, _, ?_, h⟩
    split <;> rfl

theorem exec_rdreg_completes (dev : BitVec 7) (reg : BitVec 8) (hr : s.regd = true) (hl : s.lock = false) :
    ∃ rw tr v r a f, resultWordLegal rw = true ∧
      exec (.rdreg dev reg) s =
        .next { s.afterTransaction dev reg 0#8 true rw tr with sr := v, res := r, ack := a, fail := f, wstat := false } := by
  obtain h | ⟨a2, h⟩ | ⟨a2, v, h⟩ := exec_rdreg_paths dev reg hr hl
  · exact ⟨_, _, _, s.res, _, _, rfl, h⟩
  · exact ⟨_, _, _, s.res, _, _, rfl, h⟩
  · exact ⟨_, _, _, _, _, _, resultWordLegal_byte v, h⟩

/-! ### The steps of the other agents -/

/-- Everything the move `m` of a requester, of the platform, of the arbiter, or of a command run whole can do. -/
inductive State.AgentStep (s : State) (m : Move) : State → Prop
  | idle : AgentStep s m s
  | post (p : Nat) (cw : BitVec 32) (sl : Slot) (hs : s.slot? p = some sl) (hfree : sl.free = true) :
      AgentStep s m { s.setSlot p (fun sl => { sl with reqValid := true, reqCw := cw }) with
        posted := s.posted ++ [(p, cw)] }
  | take (p : Nat) (sl : Slot) (hs : s.slot? p = some sl) (hv : sl.rspValid = true) :
      AgentStep s m { s.setSlot p (fun sl => { sl with rspValid := false }) with taken := s.taken ++ [(p, sl.rspRw)] }
  | present (v : BitVec 32) : AgentStep s m { s with cfgTimeout := v }
  | wait (p : Nat) : AgentStep s m { s with issuer := p }
  | refuse (p q : Nat) (code : ResultCode) (sl : Slot) (hs : s.slot? p = some sl) (hp : sl.pending = true)
      (hwhy : decodeCommand sl.reqCw = .error .illegalCommand ∨ decodeCommand sl.reqCw = .ok .init ∨ s.regd = false) :
      AgentStep s m (State.refuse p code { s with issuer := q })
  | register (p : Nat) (sl : Slot) (hs : s.slot? p = some sl) (hp : sl.pending = true) (hr : s.regd = false) :
      AgentStep s m (State.respond p (resultWord false .ok 0#8)
        { s with issuer := p, lock := false, timeout := registeredTimeout s.cfgTimeout, regd := true })
  | acquire (p : Nat) (sl : Slot) (i : Instr) (k : CmdK) (dev : BitVec 7) (reg dat : BitVec 8)
      (hs : s.slot? p = some sl) (hp : sl.pending = true) (hd : decodeCommand sl.reqCw = .ok i)
      (ht : transactionOf i = some (k, dev, reg, dat)) (hr : s.regd = true) (hl : s.lock = false)
      (hm : m = .grant p) : AgentStep s m (State.acquire p k dev reg dat { s with issuer := p })
  | complete (p : Nat) (sl : Slot) (dev : BitVec 7) (reg dat : BitVec 8) (dir : Bool) (rw : BitVec 32) (tr : List Token)
      (v r : BitVec 8) (a : Level) (f w : Bool) (hs : s.slot? p = some sl) (hp : sl.pending = true)
      (hr : s.regd = true) (hl : s.lock = false) (hrw : resultWordLegal rw = true)
      (hm : m = .command p) : AgentStep s m { State.afterTransaction { s with issuer := p } dev reg dat dir rw tr with
        sr := v, res := r, ack := a, fail := f, wstat := w }

theorem State.post_agentStep (p : Nat) (cw : BitVec 32) (s : State) : s.AgentStep (.post p cw) (s.post p cw) := by
  obtain h | ⟨sl, hs, hfree, h⟩ := s.post_cases p cw
  · rw [h]; exact .idle
  · rw [h]; exact .post p cw sl hs hfree

theorem State.take_agentStep (p : Nat) (s : State) : s.AgentStep (.take p) (s.take p) := by
  obtain h | ⟨sl, hs, hv, h⟩ := s.take_cases p
  · rw [h]; exact .idle
  · rw [h]; exact .take p sl hs hv

section
variable {p : Nat} {sl : Slot} {i : Instr} (hs : s.slot? p = some sl) (hp : sl.pending = true)
  (hd : decodeCommand sl.reqCw = .ok i)
include hs hp hd

/-- `INIT` answers a pending command in one of two ways (R140). -/
theorem State.init_agentStep (m : Move) (hi : i = .init) (h : exec i { s with issuer := p } = .next t) :
    s.AgentStep m t := by
  subst hi
  obtain ⟨hr, hrun⟩ | ⟨hr, hrun⟩ := execInit_cases { s with issuer := p } <;> cases hrun.symm.trans h
  · exact .refuse p p .registrationConflict sl hs hp (.inr (.inl hd))
  · exact .register p sl hs hp hr

/-- A pending command run whole (R29). -/
theorem State.exec_agentStep (h : exec i { s with issuer := p } = .next t) : s.AgentStep (.command p) t := by
  have htransaction {k : CmdK} {dev : BitVec 7} {reg dat : BitVec 8} {body : State → State}
      (hrun : exec i { s with issuer := p } = .next (State.withLock k dev reg dat body { s with issuer := p }))
      (hfree : s.regd = true → s.lock = false → s.AgentStep (.command p) t) : s.AgentStep (.command p) t := by
    obtain ⟨hr, hlock⟩ | ⟨hr, hl, hlock⟩ | ⟨hr, hl, hlock⟩ :=
      State.withLock_cases k dev reg dat body { s with issuer := p } <;> rw [hlock] at hrun
    · cases hrun.symm.trans h
      exact .refuse p p .busNotFound sl hs hp (.inr (.inr hr))
    · cases hrun.symm.trans h
      exact .wait p
    · exact hfree hr hl
  cases i with
  | wrreg dev reg val =>
    refine htransaction rfl fun hr hl => ?_
    obtain ⟨rw, tr, v, a, f, w, hrw, hrun⟩ := exec_wrreg_completes (s := { s with issuer := p }) dev reg val hr hl
    cases hrun.symm.trans h
    exact .complete p sl dev reg val false rw tr v s.res a f w hs hp hr hl hrw rfl
  | rdreg dev reg =>
    refine htransaction rfl fun hr hl => ?_
    obtain ⟨rw, tr, v, r, a, f, hrw, hrun⟩ := exec_rdreg_completes (s := { s with issuer := p }) dev reg hr hl
    cases hrun.symm.trans h
    exact .complete p sl dev reg 0#8 true rw tr v r a f false hs hp hr hl hrw rfl
  | init => exact State.init_agentStep hs hp hd _ rfl h
  | start | stop | noack | wrbyte | rdbyte | setc l | setd l | getd | dly => cases decodeCommand_postable hd

/-- A pending command granted (R141, R142). -/
theorem State.grantInstr_agentStep (h : grantInstr i { s with issuer := p } = .next t) : s.AgentStep (.grant p) t := by
  have htransaction {k : CmdK} {dev : BitVec 7} {reg dat : BitVec 8} (ht : transactionOf i = some (k, dev, reg, dat)) :
      s.AgentStep (.grant p) t := by
    simp only [grantInstr, ht, Host.Outcome.next.injEq] at h
    subst h
    obtain ⟨hr, hlock⟩ | ⟨hr, hl, hlock⟩ | ⟨hr, hl, hlock⟩ :=
      State.withLock_cases k dev reg dat id { s with issuer := p } <;> rw [hlock]
    · exact .refuse p p .busNotFound sl hs hp (.inr (.inr hr))
    · exact .wait p
    · exact .acquire p sl i k dev reg dat hs hp hd ht hr hl rfl
  cases i with
  | wrreg dev reg val => exact htransaction rfl
  | rdreg dev reg => exact htransaction rfl
  | init => exact State.init_agentStep hs hp hd _ rfl h
  | start | stop | noack | wrbyte | rdbyte | setc l | setd l | getd | dly => cases decodeCommand_postable hd

end

/-- The answer to a pending command is a step of its kind; an illegal word is refused, and where nothing is pending nothing
happens (R141). -/
theorem State.answer_agentStep {m : Move} {p : Nat} {run : Instr → State → Host.Outcome State Fault Refusal}
    (hrun : ∀ {sl : Slot} {i : Instr}, s.slot? p = some sl → sl.pending = true → decodeCommand sl.reqCw = .ok i →
      run i { s with issuer := p } = .next t → s.AgentStep m t)
    (h : s.answer p run = .next t) : s.AgentStep m t := by
  obtain rfl | ⟨sl, hs, hp, ⟨hd, rfl⟩ | ⟨i, hd, hi⟩⟩ := State.answer_cases h
  · exact .idle
  · exact .refuse p s.issuer .illegalCommand sl hs hp (.inl hd)
  · exact hrun hs hp hd hi

/-- A step is one of an agent other than the engine, or the engine's at the grain of a line operation or of a primitive. -/
theorem step_agentStep (h : step s = .next t) :
    (s.nextMove ≠ .engine ∧ s.nextMove ≠ .primitive ∧ s.popMove.AgentStep s.nextMove t) ∨
    (s.nextMove = .engine ∧ s.popMove.engineStep = .next t) ∨
    (s.nextMove = .primitive ∧ s.popMove.primitiveStep = .next t) := by
  obtain ⟨p, cw, hm, rfl⟩ | ⟨p, hm, rfl⟩ | ⟨v, hm, rfl⟩ | ⟨p, hm, h⟩ | hengine | hprimitive | ⟨p, hm, h⟩ := step_cases h
  · exact .inl (hm ▸ ⟨nofun, nofun, State.post_agentStep p cw _⟩)
  · exact .inl (hm ▸ ⟨nofun, nofun, State.take_agentStep p _⟩)
  · exact .inl (hm ▸ ⟨nofun, nofun, .present v⟩)
  · exact .inl (hm ▸ ⟨nofun, nofun, State.answer_agentStep State.grantInstr_agentStep h⟩)
  · exact .inr (.inl hengine)
  · exact .inr (.inr hprimitive)
  · exact .inl (hm ▸ ⟨nofun, nofun, State.answer_agentStep State.exec_agentStep h⟩)

/-- What the release and each line operation keep, every engine step keeps. -/
theorem State.engineStep_keeps {P : State → Prop}
    (hrelease : ∀ s : State, P s → s.lock = true → stepTable s.seq.cmdk s.seq.tstep = some .release → P s.release)
    (hline : ∀ (s t : State) (op : LineOp), P s → s.lock = true → engineNext s.seq s.sr = some (.perform op) →
      s.LineStep op t → P t)
    (hs : P s) (h : s.engineStep = .next t) : P t := by
  obtain ⟨-, rfl⟩ | ⟨hl, ht, rfl⟩ | ⟨hl, op, hn, hstep⟩ := State.engineStep_lineStep h
  · exact hs
  · exact hrelease s hs hl ht
  · exact hline s t op hs hl hn hstep

/-- A predicate is kept by every step when it does not look at the moves to come and is kept by the other agents, by the
release and by each line operation. -/
theorem step_keeps {P : State → Prop}
    (hmoves : ∀ (s : State) (ms : List Move) (n : Nat), P s → P { s with moves := ms, tick := n })
    (hagent : ∀ (s t : State) (m : Move), P s → s.AgentStep m t → P t)
    (hrelease : ∀ s : State, P s → s.lock = true → stepTable s.seq.cmdk s.seq.tstep = some .release → P s.release)
    (hline : ∀ (s t : State) (op : LineOp), P s → s.lock = true → engineNext s.seq s.sr = some (.perform op) →
      s.LineStep op t → P t)
    (hs : P s) (h : step s = .next t) : P t := by
  have hengine : ∀ s t : State, P s → s.engineStep = .next t → P t := fun _ _ =>
    State.engineStep_keeps hrelease hline
  have hpop : P s.popMove := by
    obtain ⟨ms, n, hpop⟩ := s.popMove_eq
    rw [hpop]
    exact hmoves s ms n hs
  obtain ⟨-, -, hstep⟩ | ⟨-, hstep⟩ | ⟨-, hstep⟩ := step_agentStep h
  · exact hagent _ _ _ hpop hstep
  · exact hengine _ _ hpop hstep
  · exact State.primitiveStep_keeps hengine hpop hstep

end Sys2Proof.Machine
end

section
/-!
SUPPORT. The engine's invariant (R27, R35, R40, R41): kept by every agent's step, by the release and by each line operation;
and what it says of the levels at samples and at the start of primitives.
-/

namespace Sys2Proof.Machine

variable {s t : State}

/-- The invariant of an unlocked bus. -/
theorem State.engineInv_of_free (hl : s.lock = false) (hseq : s.seq = Seq.idle)
    (hlines : s.trace ≠ [] → s.linesIdle = true) : s.EngineInv :=
  ⟨by rw [State.seqLegal_of_free hl, hseq]; rfl, fun h => absurd (hl.symm.trans h) (by decide),
    fun h => absurd (hl.symm.trans h) (by decide), fun _ => hlines⟩

/-- The invariant of a locked bus. -/
theorem State.engineInv_of_locked (hl : s.lock = true) (hn : (engineNext s.seq s.sr).isSome = true) (hr : s.regd = true)
    (hlines : s.linesLegal = true) : s.EngineInv :=
  ⟨by rw [State.seqLegal_of_locked hl, hn], fun _ => hr, fun _ => hlines,
    fun h => absurd (hl.symm.trans h) (by decide)⟩

/-- The release comes after the final `STOP`, which leaves the lines idle (R120, R121, R127). -/
theorem State.linesIdle_of_release (ht : stepTable s.seq.cmdk s.seq.tstep = some .release)
    (hn : (engineNext s.seq s.sr).isSome = true) (hlines : s.linesLegal = true) : s.linesIdle = true := by
  obtain ⟨kind, ht', hp, -⟩ := engineNext_isSome_iff.mp hn
  cases ht.symm.trans ht'
  have hrows : ∀ row ∈ stepRows, row.2.2 = .release → ∀ scl sda : Level,
      seqLines ⟨row.1, row.2.1, .nothing, 0⟩ 0#8 scl sda = (scl && sda) := by decide
  have hidle := hrows _ (mem_stepRows ht) rfl s.sclOut s.sdaOut
  rw [State.linesLegal_eq] at hlines
  have hseq : seqLines s.seq s.sr s.sclOut s.sdaOut =
      seqLines ⟨s.seq.cmdk, s.seq.tstep, .nothing, 0⟩ 0#8 s.sclOut s.sdaOut := by
    simp only [seqLines, hp, stepPrim]
  rw [State.linesIdle, ← hidle, ← hseq, hlines]

theorem State.EngineInv.agentStep (hs : s.EngineInv) {m : Move} (h : s.AgentStep m t) : t.EngineInv := by
  cases h with
  | idle | post | take | present | wait | refuse => exact hs
  | register p sl hp hpend hr =>
    obtain ⟨hlegal, hreg, -, hidle⟩ := hs
    have hl : s.lock = false := by
      cases hl : s.lock with
      | false => rfl
      | true => exact absurd (hr.symm.trans (hreg hl)) (by decide)
    rw [State.seqLegal_of_free hl] at hlegal
    exact State.engineInv_of_free rfl (of_decide_eq_true hlegal) (hidle hl)
  | acquire p sl i k dev reg dat hp hpend hd ht hr hl hm =>
    have hcall : stepTable k 0 = some (.call .start) := by
      cases i <;> cases ht <;> rfl
    exact State.engineInv_of_locked rfl (engineNext_start_isSome s.sr hcall) hr rfl
  | complete => exact State.engineInv_of_free rfl rfl fun _ => rfl

theorem State.EngineInv.release (hs : s.EngineInv) (hl : s.lock = true)
    (ht : stepTable s.seq.cmdk s.seq.tstep = some .release) : s.release.EngineInv := by
  obtain ⟨hlegal, -, hlines, -⟩ := hs
  rw [State.seqLegal_of_locked hl] at hlegal
  exact State.engineInv_of_free rfl rfl fun _ =>
    State.linesIdle_of_release (s := s) ht hlegal (hlines hl)

theorem State.LineStep.regd_eq {op : LineOp} (h : s.LineStep op t) : t.regd = s.regd := by
  cases h <;> rfl

theorem State.EngineInv.lineStep {op : LineOp} (hs : s.EngineInv) (hl : s.lock = true)
    (hn : engineNext s.seq s.sr = some (.perform op)) (h : s.LineStep op t) : t.EngineInv := by
  obtain ⟨-, hreg, hlines, -⟩ := hs
  exact State.engineInv_of_locked (h.lock_eq.trans hl) h.engineNext_isSome (h.regd_eq.trans (hreg hl))
    (h.linesLegal hn (hlines hl))

/-! ### Steps are always possible -/

theorem State.answer_isNext {p : Nat} {run : Instr → State → Host.Outcome State Fault Refusal}
    (hrun : ∀ (i : Instr) (u : State), ∃ v, run i u = .next v) (s : State) : ∃ t, s.answer p run = .next t := by
  unfold State.answer
  split
  · exact ⟨_, rfl⟩
  · split
    · split
      · exact ⟨_, rfl⟩
      · exact hrun _ _
    · exact ⟨_, rfl⟩

theorem grantInstr_isNext (i : Instr) (s : State) : ∃ t, grantInstr i s = .next t := by
  unfold grantInstr
  split
  · exact ⟨_, rfl⟩
  · exact exec_ne_fault i s

theorem State.engineStep_isNext (hs : s.EngineInv) : ∃ t, s.engineStep = .next t := by
  obtain ⟨hlegal, -, -, -⟩ := hs
  cases hl : s.lock with
  | false => exact ⟨s, by rw [State.engineStep, if_pos hl]⟩
  | true =>
    obtain h | ⟨op, t, h, -⟩ := State.exists_engineStep hl hlegal
    · exact ⟨_, h⟩
    · exact ⟨_, h⟩

theorem State.primitiveStep_isNext (hs : s.EngineInv) : ∃ t, s.primitiveStep = .next t := by
  cases hat : s.primitiveAt with
  | none => rw [State.primitiveStep_of_primitiveAt_none hat]; exact State.engineStep_isNext hs
  | some p => exact ⟨_, State.primitiveStep_of_primitiveAt hat⟩

theorem runMove_isNext (m : Move) (hs : s.EngineInv) : ∃ t, runMove m s = .next t := by
  cases m with
  | post p cw => exact ⟨_, rfl⟩
  | take p => exact ⟨_, rfl⟩
  | present v => exact ⟨_, rfl⟩
  | grant p => exact State.answer_isNext grantInstr_isNext s
  | engine => exact State.engineStep_isNext hs
  | primitive => exact State.primitiveStep_isNext hs
  | command p => exact State.answer_isNext exec_ne_fault s

/-! ### The levels at samples and entries -/

section
variable {p : PrimSel} {v : BitVec 8} {k : Nat} {scl sda : Level}

theorem lt_primLength_of_primOp {op : LineOp} (hop : primOp p v k = some op) : k < primLength p :=
  (primOp_isSome p v k).mp (by rw [hop]; rfl)

/-- A sample is taken with the clock up and the data line released (R41). -/
theorem primLines_getd (hop : primOp p v k = some .getd) (h : primLines p v k scl sda = true) : scl = high ∧ sda = high := by
  have hlt := lt_primLength_of_primOp hop
  cases p with
  | nothing => cases hop
  | start | stop | noack | wrbyte | rdbyte =>
    simp only [primLength] at hlt
    interval_cases k <;> cases hop <;> simpa [primLines] using h

/-- The data line moves with the clock low within `NOACK`, `WRBYTE` and `RDBYTE` (R41). -/
theorem primLines_setd {l : Level} (hp : p = .noack ∨ p = .wrbyte ∨ p = .rdbyte) (hop : primOp p v k = some (.setd l))
    (h : primLines p v k scl sda = true) : scl = low := by
  have hlt := lt_primLength_of_primOp hop
  obtain rfl | rfl | rfl := hp <;> simp only [primLength] at hlt <;> interval_cases k <;> cases hop <;>
    simp_all [primLines]

/-- Every primitive but `START` is entered with the clock low (R41). -/
theorem primLines_entry (hp : p = .stop ∨ p = .noack ∨ p = .wrbyte ∨ p = .rdbyte) (h : primLines p v 0 scl sda = true) :
    scl = low := by
  obtain rfl | rfl | rfl | rfl := hp <;> simp_all [primLines]

end

/-- While the lock is held the latches are as the index of the primitive has them. -/
theorem State.EngineInv.primLines {p : PrimSel} (hs : s.EngineInv) (hl : s.lock = true) (hp : s.seq.prim = p)
    (hne : p ≠ .nothing) : primLines p s.sr s.seq.pstep s.sclOut s.sdaOut = true := by
  obtain ⟨-, -, hlines, -⟩ := hs
  rw [← seqLines_of_prim hp hne, ← State.linesLegal_eq]
  exact hlines hl

end Sys2Proof.Machine

open Sys2Proof Sys2Proof.Machine

/-- Settles O39: by the kind of the step. Each line operation finds the levels of its position and leaves those of the next,
and the lock is taken with the sequencer at a `START`, which any levels suit. -/
theorem everyStepKeepsTheLinesLegal : Obligations.EveryStepKeepsTheLinesLegal :=
  fun _ _ => step_keeps (fun _ _ _ h => h) (fun _ _ _ hs => hs.agentStep) (fun _ => State.EngineInv.release)
    (fun _ _ _ => State.EngineInv.lineStep)

/-- Settles O40: a legal position has an operation or the release, and no other move stops. -/
theorem legalStatesNeverStop : Obligations.LegalStatesNeverStop := by
  intro s hs
  obtain ⟨ms, n, hpop⟩ := s.popMove_eq
  rw [State.safeStep, step, hpop]
  exact runMove_isNext (s := { s with moves := ms, tick := n }) s.nextMove hs

/-- Settles O46: the levels of each position, read off at the samples, at the `SETD`s and at index 0. -/
theorem samplesAndEntriesFindTheRightLevels : Obligations.SamplesAndEntriesFindTheRightLevels := by
  intro s hs hl
  refine ⟨fun hn => ?_, fun hzero hp => ?_, fun l hn hp => ?_⟩
  · obtain ⟨-, -, -, hop⟩ | ⟨p, -, hp, hop⟩ := engineNext_perform_cases hn
    · cases hop
    · have hne : p ≠ .nothing := by
        rintro rfl
        cases hop
      exact primLines_getd hop (hs.primLines hl hp hne)
  · have hne : s.seq.prim ≠ .nothing := by
      intro h
      simp [h] at hp
    have hlines := hs.primLines hl rfl hne
    rw [hzero] at hlines
    exact primLines_entry hp hlines
  · obtain ⟨-, -, -, hop⟩ | ⟨p, -, rfl, hop⟩ := engineNext_perform_cases hn
    · cases hop
    · have hne : s.seq.prim ≠ .nothing := by
        intro h
        simp [h] at hp
      exact primLines_setd hp hop (hs.primLines hl rfl hne)

end

section
/-!
SUPPORT. The slots, the lock and its owner, the result words, the timeout and the responder's registers (R33, R35, R36, R66,
R76, R145): what each kind of step does to them.
-/

namespace Sys2Proof.Machine

variable {s t : State}

/-! ### What a line operation of the engine leaves alone -/

section
variable {op : LineOp} (h : s.LineStep op t)
include h

theorem State.LineStep.slots_eq : t.slots = s.slots := by cases h <;> rfl

theorem State.LineStep.env_eq : t.env = (s.perform op).env := by cases h <;> rfl

theorem State.LineStep.bus_eq : t.bus = s.bus := by cases h <;> rfl

end

/-! ### One slot changed -/

theorem State.setSlot_slot_same {p : Nat} {sl : Slot} (f : Slot → Slot) (h : s.slot? p = some sl) :
    (s.setSlot p f).slot? p = some (f sl) := by
  simp_all [State.slot?]

theorem State.setSlot_slot_other {p q : Nat} (f : Slot → Slot) (h : q ≠ p) : (s.setSlot p f).slot? q = s.slot? q := by
  simp [State.slot?, Ne.symm h]

/-- A changed slot was a slot before. -/
theorem State.exists_slot_of_setSlot {p : Nat} {sl : Slot} {f : Slot → Slot} (h : (s.setSlot p f).slot? p = some sl) :
    ∃ old, s.slot? p = some old ∧ sl = f old := by
  cases hold : s.slot? p with
  | none => simp_all [State.slot?]
  | some old => exact ⟨old, rfl, Option.some.inj (h.symm.trans (State.setSlot_slot_same f hold))⟩

/-- A property of every slot, when one of them is changed. -/
theorem forall_mem_modify {P : Slot → Prop} {slots : List Slot} {p : Nat} {f : Slot → Slot} (h : ∀ sl ∈ slots, P sl)
    (hf : ∀ sl, slots[p]? = some sl → P (f sl)) : ∀ sl ∈ slots.modify p f, P sl := by
  intro sl hsl
  obtain ⟨q, hq⟩ := List.mem_iff_getElem?.mp hsl
  rw [List.getElem?_modify] at hq
  obtain ⟨old, hold, rfl⟩ := Option.map_eq_some_iff.mp hq
  by_cases hpq : p = q
  · subst hpq
    simpa using hf old hold
  · simpa [hpq] using h old (List.mem_of_getElem? hold)

theorem Slot.pending_iff {sl : Slot} : sl.pending = true ↔ sl.reqValid = true ∧ sl.rspValid = false := by
  simp [Slot.pending]

theorem Slot.free_iff {sl : Slot} : sl.free = true ↔ sl.reqValid = false ∧ sl.rspValid = false := by
  simp [Slot.free]

/-! ### While a transaction is in flight -/

/-- While the lock is held, the moves of the other agents change nothing but the slots of other requesters, the inputs and
the model's records (R142, R145). -/
theorem State.AgentStep.frame_of_locked {m : Move} (hs : s.OwnerInv) (hl : s.lock = true) (h : s.AgentStep m t) :
    t = { s with
      slots := t.slots, cfgTimeout := t.cfgTimeout, posted := t.posted, taken := t.taken, issuer := t.issuer } ∧
    t.slot? s.owner = s.slot? s.owner := by
  obtain ⟨hreg, own, hown, hreq, hrsp, hcmd⟩ := hs hl
  cases h with
  | idle | present | wait => exact ⟨rfl, rfl⟩
  | post p cw sl hs hfree =>
    refine ⟨rfl, State.setSlot_slot_other _ ?_⟩
    rintro rfl
    obtain rfl : own = sl := by simpa [hown] using hs
    cases hreq.symm.trans (Slot.free_iff.mp hfree).1
  | take p sl hs hv =>
    refine ⟨rfl, State.setSlot_slot_other _ ?_⟩
    rintro rfl
    obtain rfl : own = sl := by simpa [hown] using hs
    cases hrsp.symm.trans hv
  | refuse p q code sl hs hp hwhy =>
    refine ⟨rfl, State.respond_slot_other (s := { s with issuer := q }) _ ?_⟩
    rintro rfl
    obtain rfl : own = sl := by simpa [hown] using hs
    obtain hd' | hd' | hr := hwhy
    · obtain ⟨-, -, hd⟩ | ⟨-, -, -, hd⟩ := hcmd <;> cases hd.symm.trans hd'
    · obtain ⟨-, -, hd⟩ | ⟨-, -, -, hd⟩ := hcmd <;> cases hd.symm.trans hd'
    · cases hreg.symm.trans hr
  | register p sl hs hp hr => cases hreg.symm.trans hr
  | acquire p sl i k dev reg dat hs hp hd ht hr hfree => cases hl.symm.trans hfree
  | complete p sl dev reg dat dir rw tr v r a f w hs hp hr hfree => cases hl.symm.trans hfree

/-- The owner's command does not depend on the slots of the others. -/
theorem State.OwnerInv.of_frame (hs : s.OwnerInv) (hslot : t.slot? s.owner = s.slot? s.owner)
    (ht : t = { s with
      slots := t.slots, cfgTimeout := t.cfgTimeout, posted := t.posted, taken := t.taken, issuer := t.issuer }) :
    t.OwnerInv := by
  intro hl
  rw [ht] at hl
  obtain ⟨hreg, own, hown, hrest⟩ := hs hl
  rw [ht]
  exact ⟨hreg, own, hslot.trans hown, hrest⟩

theorem State.OwnerInv.agentStep {m : Move} (hs : s.OwnerInv) (h : s.AgentStep m t) : t.OwnerInv := by
  cases hl : s.lock with
  | true =>
    obtain ⟨hframe, hslot⟩ := h.frame_of_locked hs hl
    exact hs.of_frame hslot hframe
  | false =>
    cases h with
    | idle | post | take | present | wait | refuse => exact fun hl' => absurd (hl.symm.trans hl') Bool.false_ne_true
    | register | complete => exact fun hl' => absurd hl' Bool.false_ne_true
    | acquire p sl i k dev reg dat hs hp hd ht hr hfree =>
      obtain ⟨hreq, hrsp⟩ := Slot.pending_iff.mp hp
      refine fun _ => ⟨hr, sl, hs, hreq, hrsp, ?_⟩
      cases i <;> cases ht
      · exact .inl ⟨rfl, rfl, hd⟩
      · exact .inr ⟨rfl, rfl, rfl, hd⟩

theorem State.OwnerInv.lineStep {op : LineOp} (hs : s.OwnerInv) (h : s.LineStep op t) : t.OwnerInv := by
  cases h <;> exact hs

/-! ### The valid bits -/

theorem State.SlotsInv.agentStep {m : Move} (hs : s.SlotsInv) (h : s.AgentStep m t) : t.SlotsInv := by
  cases h with
  | idle | present | wait | acquire => exact hs
  | post p cw sl hslot hfree =>
    refine forall_mem_modify hs fun sl' hsl' _ => ?_
    cases hslot.symm.trans hsl'
    exact (Slot.free_iff.mp hfree).2
  | take => exact forall_mem_modify hs fun _ _ _ => rfl
  | refuse | register | complete => exact forall_mem_modify hs fun _ _ hreq => absurd hreq Bool.false_ne_true

theorem State.SlotsInv.release (hs : s.SlotsInv) : s.release.SlotsInv :=
  forall_mem_modify hs fun _ _ hreq => absurd hreq Bool.false_ne_true

theorem State.SlotsInv.lineStep {op : LineOp} (hs : s.SlotsInv) (h : s.LineStep op t) : t.SlotsInv := by
  unfold State.SlotsInv
  rw [h.slots_eq]
  exact hs

/-! ### Result words -/

/-- The release delivers a legal word: a recorded failure excludes a write status (R143, R151). -/
theorem State.releaseWord_legal (h : s.fail = true → s.wstat = false) : resultWordLegal s.releaseWord = true := by
  refine resultWordLegal_resultWord _ _ _ fun hcode => ?_
  cases hf : s.fail with
  | false => simp [hf] at hcode
  | true => simp [h hf]

/-- The part of the invariant on result words that concerns a command in flight. -/
theorem State.resultsInv_of_free (hl : s.lock = false)
    (hslots : ∀ sl ∈ s.slots, sl.rspValid = true → resultWordLegal sl.rspRw = true)
    (htaken : ∀ x ∈ s.taken, resultWordLegal x.2 = true) : s.ResultsInv :=
  ⟨hslots, htaken, fun h => absurd (hl.symm.trans h) Bool.false_ne_true, fun h => absurd (hl.symm.trans h) Bool.false_ne_true⟩

theorem State.ResultsInv.agentStep {m : Move} (hs : s.ResultsInv) (h : s.AgentStep m t) : t.ResultsInv := by
  obtain ⟨hslots, htaken, hfail, hwstat⟩ := hs
  have hanswer {p : Nat} {rw : BitVec 32} (hrw : resultWordLegal rw = true) :
      ∀ sl ∈ answered p rw s.slots, sl.rspValid = true → resultWordLegal sl.rspRw = true :=
    forall_mem_modify hslots fun _ _ _ => hrw
  cases h with
  | idle | present | wait => exact ⟨hslots, htaken, hfail, hwstat⟩
  | post p cw sl hslot hfree =>
    refine ⟨forall_mem_modify hslots fun sl' hsl' hv => ?_, htaken, hfail, hwstat⟩
    exact hslots sl' (List.mem_of_getElem? hsl') hv
  | take p sl hslot hv =>
    refine ⟨forall_mem_modify hslots fun _ _ hv' => absurd hv' Bool.false_ne_true, ?_, hfail, hwstat⟩
    intro x hx
    obtain hx | hx := List.mem_append.mp hx
    · exact htaken x hx
    · obtain rfl := List.mem_singleton.mp hx
      exact hslots sl (List.mem_of_getElem? hslot) hv
  | refuse p q code =>
    exact ⟨hanswer (resultWordLegal_resultWord _ _ _ fun _ => ⟨rfl, rfl⟩), htaken, hfail, hwstat⟩
  | register p => exact State.resultsInv_of_free rfl (hanswer rfl) htaken
  | acquire => exact ⟨hslots, htaken, fun _ hf => absurd hf Bool.false_ne_true, fun _ hw => absurd hw Bool.false_ne_true⟩
  | complete p sl dev reg dat dir rw tr v r a f w hs hp hr hl hrw =>
    exact State.resultsInv_of_free rfl (hanswer hrw) htaken

theorem State.ResultsInv.release (hs : s.ResultsInv) (hl : s.lock = true) : s.release.ResultsInv := by
  obtain ⟨hslots, htaken, hfail, -⟩ := hs
  refine State.resultsInv_of_free rfl (forall_mem_modify hslots fun _ _ _ => ?_) htaken
  exact State.releaseWord_legal fun hf => (hfail hl hf).2

theorem State.ResultsInv.lineStep {op : LineOp} (hs : s.ResultsInv) (hl : s.lock = true) (h : s.LineStep op t) :
    t.ResultsInv := by
  obtain ⟨hslots, htaken, hfail, hwstat⟩ := hs
  have hfail := hfail hl
  have hwstat := hwstat hl
  cases h with
  | within => exact ⟨hslots, htaken, fun _ => hfail, fun _ => hwstat⟩
  | next kind kind' v a r w ht hp hne hlast ht' hw =>
    refine ⟨hslots, htaken, fun _ hf => ?_, fun _ hwt => ?_⟩
    · obtain ⟨hlate, hnone⟩ := hfail hf
      obtain rfl | ⟨hk, hn⟩ := hw
      · exact ⟨Nat.le_succ_of_le hlate, hnone⟩
      · rw [hk, hn] at hlate
        exact absurd hlate (by decide)
    · obtain rfl | ⟨hk, hn⟩ := hw
      · exact ⟨(hwstat hwt).1, Nat.le_succ_of_le (hwstat hwt).2⟩
      · exact ⟨hk, by rw [hn]⟩
  | nack v a haddr hp hlast =>
    have hnone : s.wstat = false := by
      by_contra hw
      obtain ⟨hk, hlate⟩ := hwstat (by simpa using hw)
      obtain ⟨-, hn⟩ | ⟨hk', -⟩ | ⟨hk', -⟩ := sendsAddress_iff.mp haddr
      · omega
      · cases hk.symm.trans hk'
      · cases hk.symm.trans hk'
    exact ⟨hslots, htaken, fun _ _ => ⟨le_rfl, hnone⟩, fun _ hwt => absurd (hnone.symm.trans hwt) Bool.false_ne_true⟩

/-! ### The timeout -/

/-- `TICKS_PER_SECOND` is positive and below `2^TW` (R8). -/
theorem ticksPerSecond_ne_zero : Config.ticksPerSecond ≠ 0#32 := by
  intro h
  have hnat : (Config.ticksLessOne.val + 1) % 4294967296 = 0 := congrArg BitVec.toNat h
  have hlt := Config.ticksLessOne.isLt
  omega

theorem registeredTimeout_ne_zero (cfg : BitVec 32) : registeredTimeout cfg ≠ 0#32 := by
  unfold registeredTimeout
  split
  · exact ticksPerSecond_ne_zero
  · assumption

theorem State.TimeoutInv.agentStep {m : Move} (hs : s.TimeoutInv) (h : s.AgentStep m t) : t.TimeoutInv := by
  cases h with
  | idle | post | take | present | wait | refuse | acquire | complete => exact hs
  | register => exact fun _ => registeredTimeout_ne_zero _

theorem State.TimeoutInv.lineStep {op : LineOp} (hs : s.TimeoutInv) (h : s.LineStep op t) : t.TimeoutInv := by
  cases h <;> exact hs

/-! ### The responder's registers -/

theorem State.memory_eq_of_env (h : t.env = s.env) : t.memory = s.memory := by
  simp only [State.memory, h]

/-- A trace of line operations keeps the canonical form. -/
theorem State.after_memory_wf (tr : List Token) (h : Memory.wf s.memory = true) : Memory.wf (s.after tr).memory = true := by
  induction tr generalizing s with
  | nil => rwa [State.after_nil]
  | cons tok rest ih =>
    have hrest := ih (s := s.after [tok]) (State.perform_memory_wf (tokenOp tok) h)
    rwa [State.after_after] at hrest

theorem State.MemoryInv.agentStep {m : Move} (hs : s.MemoryInv) (h : s.AgentStep m t) : t.MemoryInv := by
  cases h with
  | idle | post | take | present | wait | refuse | register | acquire => exact hs
  | complete p sl dev reg dat dir rw tr => exact State.after_memory_wf tr hs

theorem State.MemoryInv.lineStep {op : LineOp} (hs : s.MemoryInv) (h : s.LineStep op t) : t.MemoryInv := by
  unfold State.MemoryInv
  rw [State.memory_eq_of_env h.env_eq]
  exact State.perform_memory_wf op hs

/-! ### The accounts -/

/-- Each requester has taken one result for each command it has posted, but for the one outstanding (R36, R145). -/
def State.Accounts (s : State) : Prop :=
  ∀ (p : Nat) (sl : Slot), s.slot? p = some sl →
    (s.postedBy p).length = (s.takenBy p).length + (if sl.free then 0 else 1)

theorem length_wordsOf_append_same (p : Nat) (w : BitVec 32) (record : List (Nat × BitVec 32)) :
    (wordsOf p (record ++ [(p, w)])).length = (wordsOf p record).length + 1 := by
  rw [wordsOf_append_same, List.length_append, List.length_singleton]

/-- The accounts of the requesters whose slot, commands and results are as they were. -/
theorem State.Accounts.of_other {p : Nat} (hs : s.Accounts)
    (hslot : ∀ q, q ≠ p → t.slot? q = s.slot? q)
    (hposted : ∀ q, q ≠ p → t.postedBy q = s.postedBy q) (htaken : ∀ q, q ≠ p → t.takenBy q = s.takenBy q)
    (hp : ∀ sl, t.slot? p = some sl → (t.postedBy p).length = (t.takenBy p).length + (if sl.free then 0 else 1)) :
    t.Accounts := by
  intro q sl hsl
  by_cases hq : q = p
  · subst hq
    exact hp sl hsl
  · rw [hposted q hq, htaken q hq]
    exact hs q sl ((hslot q hq).symm.trans hsl)

/-- The answer to a requester whose slot is in use leaves its slot in use, and so its account as it was. -/
theorem State.Accounts.respond {p : Nat} (hs : s.Accounts) (rw : BitVec 32)
    (hp : ∀ sl, s.slot? p = some sl → sl.free = false) : (s.respond p rw).Accounts := by
  refine hs.of_other (p := p) (fun q hq => State.respond_slot_other rw hq) (fun _ _ => rfl) (fun _ _ => rfl) ?_
  intro sl hsl
  obtain ⟨old, hold, rfl⟩ := State.exists_slot_of_setSlot hsl
  have haccount := hs p old hold
  rw [hp old hold] at haccount
  exact haccount

theorem Slot.not_free_of_pending {sl : Slot} (h : sl.pending = true) : sl.free = false := by
  simp [Slot.free, (Slot.pending_iff.mp h).1]

theorem State.Accounts.agentStep {m : Move} (hslots : s.SlotsInv) (hs : s.Accounts) (h : s.AgentStep m t) :
    t.Accounts := by
  have hused {p : Nat} {sl : Slot} (hslot : s.slot? p = some sl) (hp : sl.pending = true) :
      ∀ sl', s.slot? p = some sl' → sl'.free = false := by
    intro sl' hsl'
    cases hslot.symm.trans hsl'
    exact Slot.not_free_of_pending hp
  cases h with
  | idle | present | wait | acquire => exact hs
  | post p cw sl hslot hfree =>
    refine hs.of_other (p := p) (fun q hq => State.setSlot_slot_other _ hq)
      (fun q hq => wordsOf_append_other _ _ (Ne.symm hq)) (fun _ _ => rfl) ?_
    intro sl' hsl'
    cases (State.setSlot_slot_same _ hslot).symm.trans hsl'
    have hold := hs p sl hslot
    rw [if_pos hfree] at hold
    rw [if_neg (by simp [Slot.free])]
    exact (length_wordsOf_append_same p cw s.posted).trans (congrArg (· + 1) hold)
  | take p sl hslot hv =>
    refine hs.of_other (p := p) (fun q hq => State.setSlot_slot_other _ hq) (fun _ _ => rfl)
      (fun q hq => wordsOf_append_other _ _ (Ne.symm hq)) ?_
    intro sl' hsl'
    cases (State.setSlot_slot_same _ hslot).symm.trans hsl'
    have hreq : sl.reqValid = false := by
      by_contra hreq
      exact absurd (hv.symm.trans (hslots sl (List.mem_of_getElem? hslot) (by simpa using hreq))) (by decide)
    have hold := hs p sl hslot
    rw [if_neg (by simp [Slot.free, hv])] at hold
    rw [if_pos (by simp [Slot.free, hreq])]
    exact hold.trans (length_wordsOf_append_same p sl.rspRw s.taken).symm
  | refuse p q code sl hslot hp => exact State.Accounts.respond (s := { s with issuer := q }) hs _ (hused hslot hp)
  | register p sl hslot hp hr => exact State.Accounts.respond (s := s) hs _ (hused hslot hp)
  | complete p sl dev reg dat dir rw tr v r a f w hslot hp =>
    exact State.Accounts.respond (s := s) hs rw (hused hslot hp)

theorem State.Accounts.release (howner : s.OwnerInv) (hs : s.Accounts) (hl : s.lock = true) : s.release.Accounts := by
  obtain ⟨-, own, hown, hreq, -, -⟩ := howner hl
  refine State.Accounts.respond (s := s) hs s.releaseWord fun sl hsl => ?_
  cases hown.symm.trans hsl
  simp [Slot.free, hreq]

theorem State.Accounts.lineStep {op : LineOp} (hs : s.Accounts) (h : s.LineStep op t) : t.Accounts := by
  cases h <;> exact hs

/-! ### The end of a run -/

theorem State.programDone_iff (progs : Programs) (p : Nat) (s : State) :
    s.programDone progs p = true ↔
      s.postedBy p = progs.getD p [] ∧ (s.takenBy p).length = (progs.getD p []).length := by
  simp [State.programDone]

theorem State.runOver_iff (progs : Programs) (s : State) :
    s.runOver progs = true ↔
      (∀ p < max s.slots.length progs.length,
        s.postedBy p = progs.getD p [] ∧ (s.takenBy p).length = (progs.getD p []).length) ∧
      (∀ sl ∈ s.slots, sl.free = true) ∧ s.lock = false ∧ s.seq = Seq.idle := by
  simp only [State.runOver, Bool.and_eq_true, List.all_eq_true, List.mem_range, State.programDone_iff,
    Bool.not_eq_true', decide_eq_true_eq, and_assoc]

/-- A requester that has taken a result for each of its commands has no command outstanding. -/
theorem State.Accounts.free_of_done {p : Nat} {sl : Slot} (hs : s.Accounts) (hsl : s.slot? p = some sl)
    (h : (s.postedBy p).length = (s.takenBy p).length) : sl.free = true := by
  have haccount := hs p sl hsl
  by_contra hfree
  rw [if_neg hfree] at haccount
  omega

/-! ### The lines -/

/-- A move of another agent that touches the lines is a whole command of the requester that takes the free lock. -/
theorem State.AgentStep.lines {m : Move} (h : s.AgentStep m t) :
    (t.trace = s.trace ∧ t.sclOut = s.sclOut ∧ t.sdaOut = s.sdaOut) ∨
    (∃ p, m = .command p ∧ s.regd = true ∧ s.lock = false ∧ t.owner = p) := by
  cases h with
  | idle | post | take | present | wait | refuse | register | acquire => exact .inl ⟨rfl, rfl, rfl⟩
  | complete p sl dev reg dat dir rw tr v r a f w hs hp hr hl hrw hm => exact .inr ⟨p, hm, hr, hl, rfl⟩

/-- With the lock free the engine does nothing, at either grain (R28). -/
theorem State.engine_idle_of_free (hl : s.lock = false) (h : s.engineStep = .next t ∨ s.primitiveStep = .next t) : t = s := by
  have hengine : s.engineStep = .next s := by rw [State.engineStep, if_pos hl]
  have hat : s.primitiveAt = none := if_neg fun h => absurd (hl.symm.trans h.1) Bool.false_ne_true
  rw [State.primitiveStep_of_primitiveAt_none hat, or_self, hengine] at h
  cases h
  rfl

/-! ### The index of the bus -/

theorem State.AgentStep.bus_eq {m : Move} (h : s.AgentStep m t) : t.bus = s.bus := by
  cases h <;> rfl

theorem bus_eq_of_step (h : step s = .next t) : t.bus = s.bus :=
  step_keeps (P := fun u => u.bus = s.bus) (fun _ _ _ hu => hu) (fun _ _ _ hu hstep => hstep.bus_eq.trans hu)
    (fun _ hu _ _ => hu) (fun _ _ _ hu _ _ hstep => hstep.bus_eq.trans hu) rfl h

end Sys2Proof.Machine

open Sys2Proof Sys2Proof.Machine

/-- Settles O41: while the lock is held the other agents leave the owner's slot alone; the lock is taken for a pending
command, whose operands are latched. -/
theorem everyStepKeepsTheOwnersCommand : Obligations.EveryStepKeepsTheOwnersCommand :=
  fun _ _ => step_keeps (fun _ _ _ h => h) (fun _ _ _ hs => hs.agentStep)
    (fun _ _ _ _ hl => absurd hl Bool.false_ne_true) (fun _ _ _ hs _ _ => hs.lineStep)

/-- Settles O42: a slot changes only by a post to a free slot, by a take, and by an answer, which sets one bit and clears
the other. -/
theorem everyStepKeepsTheSlotsExclusive : Obligations.EveryStepKeepsTheSlotsExclusive :=
  fun _ _ => step_keeps (fun _ _ _ h => h) (fun _ _ _ hs => hs.agentStep) (fun _ hs _ _ => hs.release)
    (fun _ _ _ hs _ _ => hs.lineStep)

/-- Settles O43: refusals and whole commands answer with a legal word, and at the release a recorded failure excludes a
write status, since each is recorded at its own steps. -/
theorem everyResultWordIsLegal : Obligations.EveryResultWordIsLegal :=
  fun _ _ => step_keeps (fun _ _ _ h => h) (fun _ _ _ hs => hs.agentStep) (fun _ hs hl _ => hs.release hl)
    (fun _ _ _ hs hl _ => hs.lineStep hl)

/-- Settles O44: only line operations move the responder, and each keeps the form. -/
theorem everyStepKeepsTheMemoryCanonical : Obligations.EveryStepKeepsTheMemoryCanonical :=
  fun _ _ => step_keeps (fun _ _ _ h => h) (fun _ _ _ hs => hs.agentStep) (fun _ hs _ _ => hs)
    (fun _ _ _ hs _ _ => hs.lineStep)

/-- Settles O45: only the first `INIT` writes the timeout, with a value that is not zero. -/
theorem registeredTimeoutIsNotZero : Obligations.RegisteredTimeoutIsNotZero :=
  fun _ _ => step_keeps (fun _ _ _ h => h) (fun _ _ _ hs => hs.agentStep) (fun _ hs _ _ => hs)
    (fun _ _ _ hs _ _ => hs.lineStep)

/-- Settles O56: a post and a take each move both sides of one account; an answer leaves a used slot used. -/
theorem everyStepKeepsTheAccounts : Obligations.EveryStepKeepsTheAccounts :=
  fun _ _ => step_keeps (fun _ _ _ h => h)
    (fun _ _ _ ⟨hslots, howner, haccounts⟩ h =>
      ⟨hslots.agentStep h, howner.agentStep h, State.Accounts.agentStep hslots haccounts h⟩)
    (fun _ ⟨hslots, howner, haccounts⟩ hl _ =>
      ⟨hslots.release, fun h => absurd h Bool.false_ne_true, State.Accounts.release howner haccounts hl⟩)
    (fun _ _ _ ⟨hslots, howner, haccounts⟩ _ _ h =>
      ⟨hslots.lineStep h, howner.lineStep h, State.Accounts.lineStep haccounts h⟩)

/-- Settles O48: the other agents touch the lines only by a whole command, and the engine only with the lock held. -/
theorem onlyTheLockHolderDrivesTheLines : Obligations.OnlyTheLockHolderDrivesTheLines := by
  intro s t h hlines
  have hstep := step_agentStep h
  obtain ⟨ms, n, hpop⟩ := s.popMove_eq
  rw [hpop] at hstep
  have hheld (hengine : State.engineStep { s with moves := ms, tick := n } = .next t ∨
      State.primitiveStep { s with moves := ms, tick := n } = .next t) : s.lock = true := by
    by_contra hl
    have ht := State.engine_idle_of_free (s := { s with moves := ms, tick := n }) (by simpa using hl) hengine
    simp [ht] at hlines
  obtain ⟨-, -, hagent⟩ | ⟨hm, hengine⟩ | ⟨hm, hprimitive⟩ := hstep
  · obtain ⟨htrace, hscl, hsda⟩ | hcommand := hagent.lines
    · simp [htrace, hscl, hsda] at hlines
    · exact .inr hcommand
  · exact .inl ⟨hheld (.inl hengine), .inl hm⟩
  · exact .inl ⟨hheld (.inr hprimitive), .inr hm⟩

/-- Settles O49: the frame of the other agents' moves while the lock is held. -/
theorem transactionsNeverInterleave : Obligations.TransactionsNeverInterleave := by
  intro s t hs hl hengine hprimitive h
  have hstep := step_agentStep h
  obtain ⟨ms, n, hpop⟩ := s.popMove_eq
  rw [hpop] at hstep
  obtain ⟨-, -, hagent⟩ | ⟨hm, -⟩ | ⟨hm, -⟩ := hstep
  · obtain ⟨hframe, hslot⟩ := State.AgentStep.frame_of_locked (s := { s with moves := ms, tick := n }) hs hl hagent
    have hmoves : t.moves = ms := by rw [hframe]
    have htick : t.tick = n := by rw [hframe]
    refine ⟨?_, hslot⟩
    rw [hmoves, htick]
    exact hframe
  · exact absurd hm hengine
  · exact absurd hm hprimitive

/-- Settles O51: the step of one bus replaces it in the list and keeps its index. -/
theorem instancesAreIndependent : Obligations.InstancesAreIndependent := by
  intro sys sys' k h
  unfold System.stepAt at h
  cases hs : sys[k]? with
  | none =>
    simp only [hs] at h
    cases h
    exact ⟨rfl, fun _ _ => rfl, fun s hs' => by cases hs'⟩
  | some s =>
    simp only [hs] at h
    cases hstep : step s with
    | next t =>
      simp only [hstep] at h
      cases h
      have hk : k < sys.length := (List.getElem?_eq_some_iff.mp hs).1
      refine ⟨List.length_set, fun j hj => List.getElem?_set_ne (Ne.symm hj), fun s' hs' => ?_⟩
      cases hs'
      exact ⟨t, hstep, List.getElem?_set_self hk, bus_eq_of_step hstep⟩
    | fault r => simp only [hstep] at h; cases h
    | refused r => simp only [hstep] at h; cases h

/-- Settles O57: by the accounts, a requester that has taken a result for each command has no command outstanding, and the
engine's invariant gives the rest. -/
theorem aRunIsOverWhenEveryProgramIsDone : Obligations.ARunIsOverWhenEveryProgramIsDone := by
  rintro progs s ⟨hlegal, -, -, hidle⟩ ⟨-, -, haccounts⟩
  rw [State.runOver_iff]
  refine ⟨⟨fun ⟨hdone, _, hl, _⟩ => ⟨hdone, hl⟩, fun ⟨hdone, hl⟩ => ⟨hdone, fun sl hsl => ?_, hl, ?_⟩⟩, ?_⟩
  · obtain ⟨p, hp⟩ := List.mem_iff_getElem?.mp hsl
    have hlt : p < s.slots.length := (List.getElem?_eq_some_iff.mp hp).1
    obtain ⟨hposted, htaken⟩ := hdone p (lt_max_of_lt_left hlt)
    exact State.Accounts.free_of_done haccounts hp (by rw [hposted, htaken])
  · rw [State.seqLegal_of_free hl] at hlegal
    exact of_decide_eq_true hlegal
  · rintro ⟨-, hfree, hl, hseq⟩
    exact ⟨fun sl hsl => Slot.free_iff.mp (hfree sl hsl), hseq, hidle hl⟩

end

section
/-!
SUPPORT. One step at a time: the reset state (R42, R170), the classification of a posted command (R141, R142, R152 to
R154), post and take (R145), and the step as the decoded instruction's meaning (R28, R29, R109).
-/

namespace Sys2Proof.Machine

variable {s : State} {p : Nat} {sl : Slot}

/-! ### Reset -/

/-- Every slot is empty after reset. -/
theorem State.slot_of_mem_reset {sl : Slot} (h : sl ∈ State.reset.slots) : sl = Slot.reset := by
  obtain rfl | h := List.mem_cons.mp h
  · rfl
  · exact List.eq_of_mem_replicate h

/-! ### The classification of a posted command -/

theorem State.withLock_of_unregistered (k : CmdK) (dev : BitVec 7) (reg dat : BitVec 8) (body : State → State)
    (hr : s.regd = false) : s.withLock k dev reg dat body = s.refuse s.issuer .busNotFound := if_pos hr

theorem State.withLock_of_locked (k : CmdK) (dev : BitVec 7) (reg dat : BitVec 8) (body : State → State)
    (hr : s.regd = true) (hl : s.lock = true) : s.withLock k dev reg dat body = s := by
  simp [State.withLock, hr, hl]

/-- Code 2 stands in the requester's slot and nothing else changes (R76, R154). -/
theorem State.refuse_busNotFound (s : State) (p : Nat) :
    s.refuse p .busNotFound = { s with slots := answered p 0x00000200#32 s.slots } := rfl

/-- Nothing is answered where no command is pending (R141). -/
theorem State.answer_of_not_pending {run : Instr → State → Host.Outcome State Fault Refusal} (hs : s.slot? p = some sl)
    (hp : sl.pending = false) : s.answer p run = .next s := by
  simp [State.answer, hs, hp]

/-- A pending command that decodes goes on (R141). -/
theorem State.answer_of_decode_ok {run : Instr → State → Host.Outcome State Fault Refusal} {i : Instr}
    (hs : s.slot? p = some sl) (hp : sl.pending = true) (hd : decode (.cmd sl.reqCw) = .ok i) :
    s.answer p run = run i { s with issuer := p } := by
  simp [State.answer, hs, hp, hd]

/-- A transaction command on an unregistered bus is refused with code 2 (R141, R152). -/
theorem State.grantStep_of_unregistered {i : Instr} {k : CmdK} {dev : BitVec 7} {reg dat : BitVec 8}
    (hs : s.slot? p = some sl) (hp : sl.pending = true) (hd : decodeCommand sl.reqCw = .ok i)
    (ht : transactionOf i = some (k, dev, reg, dat)) (hr : s.regd = false) :
    s.grantStep p = .next { s with issuer := p, slots := answered p 0x00000200#32 s.slots } := by
  rw [State.grantStep_of_transaction hs hp hd ht, State.withLock_of_unregistered (s := { s with issuer := p }) _ _ _ _ _ hr]
  rfl

/-! ### Post and take -/

/-- Changing a slot to a function of what it held. -/
theorem State.setSlot_eq_set (f : Slot → Slot) (hs : s.slot? p = some sl) :
    s.setSlot p f = { s with slots := s.slots.set p (f sl) } := by
  have hmodify : s.slots.modify p f = s.slots.set p (f sl) := by
    obtain ⟨hp, rfl⟩ := List.getElem?_eq_some_iff.mp hs
    refine List.ext_getElem? fun q => ?_
    by_cases hq : p = q
    · subst hq
      simp [hp]
    · simp [hq]
  rw [State.setSlot, hmodify]

theorem State.post_of_free (cw : BitVec 32) (hs : s.slot? p = some sl) (hfree : sl.free = true) :
    s.post p cw = { s with
      slots := s.slots.set p { sl with reqValid := true, reqCw := cw }, posted := s.posted ++ [(p, cw)] } := by
  simp only [State.post, hs, hfree, if_true, State.setSlot_eq_set _ hs]

theorem State.post_of_used (cw : BitVec 32) (hs : s.slot? p = some sl) (hfree : sl.free = false) : s.post p cw = s := by
  simp [State.post, hs, hfree]

theorem State.take_of_waiting (hs : s.slot? p = some sl) (hv : sl.rspValid = true) :
    s.take p = { s with
      slots := s.slots.set p { sl with rspValid := false }, taken := s.taken ++ [(p, sl.rspRw)] } := by
  simp only [State.take, hs, hv, if_true, State.setSlot_eq_set _ hs]

theorem State.take_of_none (hs : s.slot? p = some sl) (hv : sl.rspValid = false) : s.take p = s := by
  simp [State.take, hs, hv]

/-! ### The step as the decoded instruction's meaning -/

/-- A word on port `lop_word` is the code of the line operation that comes next, with the lock held (R39). -/
theorem State.lopWord_eq_some {c : BitVec 3} (h : s.lopWord = some c) :
    s.lock = true ∧ ∃ op, engineNext s.seq s.sr = some (.perform op) ∧ op.code = c := by
  unfold State.lopWord at h
  split at h
  · next hl =>
    split at h
    · next op hn => exact ⟨hl, op, hn, Option.some.inj h⟩
    · cases h
  · cases h

/-- The engine step of a line operation is its instruction's meaning, with the bookkeeping to the next one (R28). -/
theorem State.engineStep_eq_andThen {op : LineOp} (hl : s.lock = true) (hn : engineNext s.seq s.sr = some (.perform op)) :
    s.engineStep = andThen (exec op.instr s) (fun t => (t.storeSample op s.sdaIn).advance) := by
  rw [exec_lineOp]
  exact State.engineStep_perform hl hn

/-- The primitive move is the meaning of the primitive's instruction, with the return to the transaction (R109). -/
theorem State.primitiveStep_eq_andThen {q : PrimSel} {i : Instr} (hat : s.primitiveAt = some q)
    (hd : decode (.prim q.code) = .ok i) : s.primitiveStep = andThen (exec i s) State.finishStep := by
  simp only [State.primitiveStep, hat, hd]

end Sys2Proof.Machine

open Sys2Proof Sys2Proof.Machine

/-- Settles O37: the reset state is written out; its slots are all empty. -/
theorem resetEstablishesTheLaunchState : Obligations.ResetEstablishesTheLaunchState := by
  refine ⟨rfl, rfl, rfl, rfl, rfl, rfl, rfl, rfl, ?_, fun sl hsl => ?_, rfl⟩
  · rw [State.reset, List.length_cons, List.length_replicate, Config.nreq]
  · rw [State.slot_of_mem_reset hsl]
    exact ⟨rfl, rfl⟩

/-- Settles O38: the lock is free, nothing is registered, posted or taken, and every slot is empty. -/
theorem resetMeetsEveryInvariant : Obligations.ResetMeetsEveryInvariant := by
  have howner : State.reset.OwnerInv := fun h => absurd h Bool.false_ne_true
  have hslots : State.reset.SlotsInv := fun sl hsl _ => by rw [State.slot_of_mem_reset hsl]; rfl
  refine ⟨State.engineInv_of_free rfl rfl fun h => absurd rfl h, howner, hslots,
    State.resultsInv_of_free rfl (fun sl hsl hv => ?_) (fun _ h => by cases h), State.reset_memory_wf,
    fun h => absurd h Bool.false_ne_true, hslots, howner, fun p sl hsl => ?_⟩
  · rw [State.slot_of_mem_reset hsl] at hv
    exact absurd hv Bool.false_ne_true
  · rw [State.slot_of_mem_reset (List.mem_of_getElem? hsl)]
    rfl

/-- Settles O23: the acceptance of a transaction command, unregistered and locked. -/
theorem transactionsAreRefusedOrWait : Obligations.TransactionsAreRefusedOrWait := by
  intro dev reg val s
  refine ⟨fun hr => ?_, fun hr hl => ?_⟩
  · rw [← s.refuse_busNotFound]
    exact ⟨congrArg Host.Outcome.next (State.withLock_of_unregistered _ _ _ _ _ hr),
      congrArg Host.Outcome.next (State.withLock_of_unregistered _ _ _ _ _ hr)⟩
  · exact ⟨congrArg Host.Outcome.next (State.withLock_of_locked _ _ _ _ _ hr hl),
      congrArg Host.Outcome.next (State.withLock_of_locked _ _ _ _ _ hr hl)⟩

/-- Settles O26: by what the posted word decodes to, and the acceptance of a transaction command. -/
theorem postedCommandsAreClassified : Obligations.PostedCommandsAreClassified := by
  intro s p sl hs
  refine ⟨State.answer_of_not_pending hs, fun hp dev reg val => ⟨fun hd => ?_, fun hd hr => ?_, fun hd hr => ?_, ?_⟩⟩
  · rw [← s.refuse_illegalCommand]
    exact State.answer_of_decode_error grantInstr hs hp hd
  · have hgrant : runMove (.grant p) s = exec .init { s with issuer := p } := State.answer_of_decode_ok hs hp hd
    exact ⟨hgrant, hgrant.trans (exec_init_of_unregistered (s := { s with issuer := p }) hr)⟩
  · have hgrant : runMove (.grant p) s = exec .init { s with issuer := p } := State.answer_of_decode_ok hs hp hd
    exact hgrant.trans (exec_init_of_registered (s := { s with issuer := p }) hr)
  · intro hd
    obtain ⟨i, k, dat, hd, ht⟩ : ∃ i k dat, decodeCommand sl.reqCw = .ok i ∧ transactionOf i = some (k, dev, reg, dat) := by
      obtain hd | hd := hd
      · exact ⟨_, _, _, hd, rfl⟩
      · exact ⟨_, _, _, hd, rfl⟩
    exact ⟨State.grantStep_of_unregistered hs hp hd ht, State.grantStep_of_locked hs hp hd ht,
      fun hr hl => ⟨_, State.grantStep_of_free hs hp hd ht hr hl, rfl, rfl, rfl⟩⟩

/-- Settles O29: a post and a take by the valid bits of the slot. -/
theorem requestersPostAndTake : Obligations.RequestersPostAndTake := by
  intro s p sl hs
  refine ⟨fun cw hreq hrsp => ?_, fun cw hused => ?_, fun hv => ?_, fun hv => ?_⟩
  · exact congrArg Host.Outcome.next (State.post_of_free cw hs (Slot.free_iff.mpr ⟨hreq, hrsp⟩))
  · refine congrArg Host.Outcome.next (State.post_of_used cw hs ?_)
    obtain h | h := hused <;> simp [Slot.free, h]
  · exact congrArg Host.Outcome.next (State.take_of_waiting hs hv)
  · exact congrArg Host.Outcome.next (State.take_of_none hs hv)

/-- Settles O33: each grain decodes its code word and goes on with the instruction's meaning. -/
theorem stepRunsTheDecodedInstruction : Obligations.StepRunsTheDecodedInstruction := by
  refine ⟨fun s p sl i hm hs hp hd => ?_, fun s p i hm hat hd => ?_, fun s c i hm hc hd => ?_⟩
  · obtain ⟨ms, n, hpop⟩ := s.popMove_eq
    rw [step, hm, hpop]
    exact State.answer_of_decode_ok (s := { s with moves := ms, tick := n }) hs hp hd
  · obtain ⟨ms, n, hpop⟩ := s.popMove_eq
    rw [step, hm, hpop]
    exact State.primitiveStep_eq_andThen (s := { s with moves := ms, tick := n }) hat hd
  · obtain ⟨ms, n, hpop⟩ := s.popMove_eq
    obtain ⟨hl, op, hn, rfl⟩ := State.lopWord_eq_some hc
    cases (decode_lop_code op).symm.trans hd
    rw [step, hm, hpop]
    exact ⟨op, rfl, State.engineStep_eq_andThen (s := { s with moves := ms, tick := n }) hl hn⟩

end

section
/-!
SUPPORT. Transactions by their samples, counts and patterns (R12, R65, R106, R125, R129, R184).
-/

namespace Sys2Proof.Machine

/-! ### Accumulation -/

/-- Eight samples leave nothing of what the register held (R106). -/
theorem foldl_shiftIn_eq (v w : BitVec 8) {rs : List Level} (hlen : rs.length = 8) :
    rs.foldl shiftIn v = rs.foldl shiftIn w := by
  refine BitVec.eq_of_getLsbD_eq fun i hi => ?_
  have hj : 7 - i < rs.length := by omega
  have hv := getLsbD_foldl_shiftIn v rs hlen.le hj
  have hw := getLsbD_foldl_shiftIn w rs hlen.le hj
  rw [show rs.length - 1 - (7 - i) = i by omega] at hv hw
  rw [hv, hw]

/-- The sum of R106 from a cleared register, for each of the 256 samples. -/
theorem foldl_shiftIn_zero : ∀ r0 r1 r2 r3 r4 r5 r6 r7 : Level,
    [r0, r1, r2, r3, r4, r5, r6, r7].foldl shiftIn 0#8 = assembleByte r0 r1 r2 r3 r4 r5 r6 r7 := by
  decide

theorem foldl_shiftIn_eq_assembleByte (v : BitVec 8) (r0 r1 r2 r3 r4 r5 r6 r7 : Level) :
    [r0, r1, r2, r3, r4, r5, r6, r7].foldl shiftIn v = assembleByte r0 r1 r2 r3 r4 r5 r6 r7 :=
  (foldl_shiftIn_eq v 0#8 rfl).trans (foldl_shiftIn_zero ..)

/-- A byte whose bits are eight samples, bit 7 first, is what the samples accumulate to (R105, R106). -/
theorem eq_assembleByte_of_bits {v : BitVec 8} {r0 r1 r2 r3 r4 r5 r6 r7 : Level}
    (h : ∀ (j : Nat) (hj : j < [r0, r1, r2, r3, r4, r5, r6, r7].length),
      v.getLsbD (7 - j) = [r0, r1, r2, r3, r4, r5, r6, r7][j]) :
    v = assembleByte r0 r1 r2 r3 r4 r5 r6 r7 := by
  rw [← foldl_shiftIn_zero]
  refine BitVec.eq_of_getLsbD_eq fun i hi => ?_
  have hj : 7 - i < [r0, r1, r2, r3, r4, r5, r6, r7].length := by simp; omega
  have hfold := getLsbD_foldl_shiftIn 0#8 [r0, r1, r2, r3, r4, r5, r6, r7] (by simp) hj
  rw [← h (7 - i) hj] at hfold
  simp only [List.length_cons, List.length_nil, show 7 - (7 - i) = i by omega] at hfold
  exact hfold.symm

/-! ### Counts -/

@[simp] theorem samples_append (a b : List Token) : samples (a ++ b) = samples a ++ samples b :=
  List.filterMap_append

@[simp] theorem samples_getd (r : Level) (tr : List Token) : samples (.g r :: tr) = r :: samples tr := rfl

@[simp] theorem samples_nil : samples [] = [] := rfl

@[simp] theorem samples_startTrace : samples startTrace = [] := rfl

@[simp] theorem samples_stopTrace : samples stopTrace = [] := rfl

@[simp] theorem samples_noackTrace : samples noackTrace = [] := rfl

@[simp] theorem samples_delay (tr : List Token) : samples (.t :: tr) = samples tr := rfl

@[simp] theorem samples_wrbyteLead (v : BitVec 8) : samples (wrbyteLead v) = [] := rfl

@[simp] theorem samples_wrbyteTrace (v : BitVec 8) (r : Level) : samples (wrbyteTrace v r) = [r] := rfl

@[simp] theorem samples_rdbyteTrace (v : BitVec 8) :
    samples (rdbyteTrace v) = [v.getLsbD 7, v.getLsbD 6, v.getLsbD 5, v.getLsbD 4, v.getLsbD 3, v.getLsbD 2, v.getLsbD 1,
      v.getLsbD 0] := rfl

/-- The samples before the one of cell `j` are those of the cells before it. -/
theorem length_samples_rdbyteLead (v : BitVec 8) (j : Nat) : (samples (rdbyteLead v j)).length = j := by
  have hcells : ∀ js : List Nat, (samples (js.flatMap fun i => recvTrace (v.getLsbD (7 - i)))).length = js.length := by
    intro js
    induction js with
    | nil => rfl
    | cons i js ih => rw [List.flatMap_cons, samples_append, List.length_append, ih, List.length_cons]; exact Nat.add_comm ..
  simp only [rdbyteLead, samples_append, List.length_append, hcells, List.length_range]
  show 0 + j + 0 = j
  omega

section
variable (dev : BitVec 7) (reg val v : BitVec 8) (a2 a3 : Level)

@[simp] theorem samples_absentTrace : samples (absentTrace dev) = [high] := by
  simp [absentTrace]

@[simp] theorem samples_writeTrace : samples (writeTrace dev reg val a2 a3) = [low, a2, a3] := by
  simp [writeTrace]

@[simp] theorem samples_selectTrace : samples (selectTrace dev reg a2 a3) = [low, a2, a3] := by
  simp [selectTrace]

@[simp] theorem samples_unreadTrace : samples (unreadTrace dev reg a2) = [low, a2, high] := by
  simp [unreadTrace]

@[simp] theorem samples_readTrace :
    samples (readTrace dev reg v a2) =
      [low, a2, low, v.getLsbD 7, v.getLsbD 6, v.getLsbD 5, v.getLsbD 4, v.getLsbD 3, v.getLsbD 2, v.getLsbD 1,
        v.getLsbD 0] := by
  simp [readTrace]

end

/-- The number of samples is that of the list of samples. -/
theorem sampleCount_eq (tr : List Token) : sampleCount tr = (samples tr).length := by
  induction tr with
  | nil => rfl
  | cons tok rest ih =>
    simp only [sampleCount] at ih
    cases tok with
    | g r => cases r <;> simp [sampleCount, ← ih] <;> omega
    | c l | d l | t => simpa [sampleCount, samples, List.count_cons] using ih

@[simp] theorem delayCount_append (a b : List Token) : delayCount (a ++ b) = delayCount a + delayCount b :=
  List.count_append

@[simp] theorem pulseCount_append (a b : List Token) : pulseCount (a ++ b) = pulseCount a + pulseCount b :=
  List.count_append

@[simp] theorem delayCount_delay (tr : List Token) : delayCount (.t :: tr) = delayCount tr + 1 := by simp [delayCount]
@[simp] theorem delayCount_startTrace : delayCount startTrace = 2 := rfl
@[simp] theorem delayCount_stopTrace : delayCount stopTrace = 3 := rfl
@[simp] theorem delayCount_noackTrace : delayCount noackTrace = 4 := rfl
@[simp] theorem delayCount_wrbyteTrace (v : BitVec 8) (r : Level) : delayCount (wrbyteTrace v r) = 9 := rfl
@[simp] theorem delayCount_rdbyteTrace (v : BitVec 8) : delayCount (rdbyteTrace v) = 8 := rfl

@[simp] theorem pulseCount_delay (tr : List Token) : pulseCount (.t :: tr) = pulseCount tr := by simp [pulseCount]
@[simp] theorem pulseCount_startTrace : pulseCount startTrace = 1 := rfl
@[simp] theorem pulseCount_stopTrace : pulseCount stopTrace = 1 := rfl
@[simp] theorem pulseCount_noackTrace : pulseCount noackTrace = 1 := rfl
@[simp] theorem pulseCount_wrbyteTrace (v : BitVec 8) (r : Level) : pulseCount (wrbyteTrace v r) = 9 := rfl
@[simp] theorem pulseCount_rdbyteTrace (v : BitVec 8) : pulseCount (rdbyteTrace v) = 8 := rfl

/-! ### Patterns -/

section
variable (tr : List Token) (v : BitVec 8) (r scl sda : Level)

@[simp] theorem patterns_delay_append : patterns (.t :: tr) scl sda = patterns tr scl sda := by
  simp [patterns, tokenOp, sclAfter, sdaAfter]

theorem patterns_startTrace_append : patterns (startTrace ++ tr) high high = .start :: patterns tr low low := by
  rw [patterns_append, patterns_startTrace_cases]
  rfl

theorem patterns_stopTrace_append : patterns (stopTrace ++ tr) low sda = .stop :: patterns tr high high := by
  rw [patterns_append, patterns_stopTrace]
  rfl

theorem patterns_noackTrace_append : patterns (noackTrace ++ tr) low sda = patterns tr low low := by
  rw [patterns_append, patterns_noackTrace]
  rfl

theorem patterns_wrbyteTrace_append : patterns (wrbyteTrace v r ++ tr) low sda = patterns tr low high := by
  rw [patterns_append, patterns_wrbyteTrace, sclAfter_wrbyteTrace, sdaAfter_wrbyteTrace, List.nil_append]

/-- `RDBYTE` moves the data line before it raises the clock (R41, R105). -/
theorem patterns_rdbyteTrace_append : patterns (rdbyteTrace v ++ tr) low sda = patterns tr low high := by
  have hnone : patterns (rdbyteTrace v) low sda = [] := by
    simp [rdbyteTrace, recvTrace, patterns, tokenOp, sclAfter]
  rw [patterns_append, hnone, sclAfter_rdbyteTrace, sdaAfter_rdbyteTrace, List.nil_append]

end

section
variable (dev : BitVec 7) (reg val v : BitVec 8) (a2 a3 : Level)

theorem patterns_absentTrace : patterns (absentTrace dev) high high = [.start, .stop] := by
  simp only [absentTrace, List.append_assoc, patterns_startTrace_append, patterns_wrbyteTrace_append, patterns_stopTrace]

theorem patterns_writeTrace : patterns (writeTrace dev reg val a2 a3) high high = [.start, .stop] := by
  simp only [writeTrace, List.append_assoc, List.cons_append, List.nil_append, patterns_startTrace_append,
    patterns_wrbyteTrace_append, patterns_delay_append, patterns_stopTrace]

/-- The first frame of an `RDREG` and the Start of the second, then whatever follows the second address byte. -/
theorem patterns_selectTrace_append (tr : List Token) :
    patterns (selectTrace dev reg a2 a3 ++ tr) high high = .start :: .stop :: .start :: patterns tr low high := by
  simp only [selectTrace, List.append_assoc, List.cons_append, List.nil_append, patterns_startTrace_append,
    patterns_wrbyteTrace_append, patterns_delay_append, patterns_stopTrace_append]

theorem patterns_unreadTrace : patterns (unreadTrace dev reg a2) high high = [.start, .stop, .start, .stop] := by
  rw [unreadTrace, patterns_selectTrace_append, patterns_stopTrace]

theorem patterns_readTrace : patterns (readTrace dev reg v a2) high high = [.start, .stop, .start, .stop] := by
  simp only [readTrace, List.append_assoc, List.cons_append, List.nil_append, patterns_selectTrace_append, patterns_delay_append,
    patterns_rdbyteTrace_append, patterns_noackTrace_append, patterns_stopTrace]

end

/-! ### An arbitrary environment that lists its levels -/

/-- Listed levels are used up one for each sample (R65). -/
theorem watch_levels (tr : List Token) (scl sda : Level) (ls : List Level) :
    watch tr scl sda (.levels ls) = .levels (ls.drop (samples tr).length) := by
  induction tr generalizing scl sda ls with
  | nil => rfl
  | cons tok rest ih =>
    cases tok with
    | g r => simp [watch, tokenOp, ih, samples]
    | c l | d l | t => simp [watch, tokenOp, ih, samples, Environment.observe]

/-- The level of a sample is the next one listed (R65, R93). -/
theorem presentedAfter_levels {s : State} {ls : List Level} {l : Level} {lead : List Token} (h : s.env = .levels ls)
    (hl : ls[(samples lead).length]? = some l) : presentedAfter s lead = l := by
  obtain ⟨hlt, rfl⟩ := List.getElem?_eq_some_iff.mp hl
  rw [presentedAfter, h, watch_levels, List.drop_eq_getElem_cons hlt]
  rfl

/-! ### Two runs with the same samples -/

/-- The operations before the sample of cell `j` depend on the bits of the cells before it alone. -/
theorem rdbyteLead_congr {v w : BitVec 8} {j : Nat} (h : ∀ i < j, v.getLsbD (7 - i) = w.getLsbD (7 - i)) :
    rdbyteLead v j = rdbyteLead w j := by
  have hcells : (List.range j).flatMap (fun i => recvTrace (v.getLsbD (7 - i))) =
      (List.range j).flatMap (fun i => recvTrace (w.getLsbD (7 - i))) :=
    List.flatMap_congr fun i hi => by rw [h i (List.mem_range.mp hi)]
  rw [rdbyteLead, rdbyteLead, hcells]

/-- The byte received is determined by what the environment presents, cell after cell. -/
theorem byte_eq_of_samples {v w : BitVec 8} {f : List Token → Level}
    (hv : ∀ j < 8, v.getLsbD (7 - j) = f (rdbyteLead v j)) (hw : ∀ j < 8, w.getLsbD (7 - j) = f (rdbyteLead w j)) :
    v = w := by
  have hbits : ∀ j < 8, v.getLsbD (7 - j) = w.getLsbD (7 - j) := by
    intro j
    induction j using Nat.strongRecOn with
    | ind j ih =>
      intro hj
      rw [hv j hj, hw j hj, rdbyteLead_congr fun i hi => ih i hi (hi.trans hj)]
  refine BitVec.eq_of_getLsbD_eq fun i hi => ?_
  have hbit := hbits (7 - i) (by omega)
  rwa [show 7 - (7 - i) = i by omega] at hbit

/-! ### The acknowledged paths by their samples -/

/-- The slot of the requester that is answered (R143). -/
theorem State.slot_of_answered {s t : State} {p : Nat} {sl : Slot} {rw : BitVec 32} (ht : t.slots = answered p rw s.slots)
    (hs : s.slot? p = some sl) :
    t.slot? p = some { sl with reqValid := false, rspValid := true, rspRw := rw } := by
  rw [State.slot?, ht]
  exact State.respond_slot_same rw hs

section
variable {s : State} {dev : BitVec 7} {reg val : BitVec 8} {a2 a3 : Level} (hr : s.regd = true) (hl : s.lock = false)
  (h1 : presentedAfter s (startTrace ++ wrbyteLead (addressByte dev Config.writeBit)) = low)
  (h2 : presentedAfter s (startTrace ++ wrbyteTrace (addressByte dev Config.writeBit) low ++ [Token.t] ++
    wrbyteLead reg) = a2)
include hr hl h1 h2

/-- `WRREG` with its address byte acknowledged, by the levels of the other two slots (R120). -/
theorem exec_wrreg_of_ack
    (h3 : presentedAfter s (startTrace ++ wrbyteTrace (addressByte dev Config.writeBit) low ++ [Token.t] ++
      wrbyteTrace reg a2 ++ [Token.t] ++ wrbyteLead val) = a3) :
    exec (.wrreg dev reg val) s = .next
      { s.afterTransaction dev reg val false (if a3 then 0x00001000#32 else 0x00000000#32)
          (writeTrace dev reg val a2 a3) with
        sr := val, ack := a3, fail := false, wstat := a3 } := by
  obtain ⟨-, -, hack, -, -⟩ := wrregWritesOneRegister dev reg val s hr hl
  subst h2 h3
  exact hack h1

variable
  (h3 : presentedAfter s (startTrace ++ wrbyteTrace (addressByte dev Config.writeBit) low ++ [Token.t] ++
    wrbyteTrace reg a2 ++ [Token.t] ++ stopTrace ++ [Token.t] ++ startTrace ++
    wrbyteLead (addressByte dev Config.readBit)) = a3)
include h3

/-- `RDREG` with its second address byte not acknowledged (R121). -/
theorem exec_rdreg_of_second_nack (ha3 : a3 = high) :
    exec (.rdreg dev reg) s = .next
      { s.afterTransaction dev reg 0#8 true 0x00000100#32 (unreadTrace dev reg a2) with
        sr := addressByte dev Config.readBit, ack := high, fail := true, wstat := false } := by
  obtain ⟨-, -, hnack, -, -, -⟩ := rdregReadsOneRegister dev reg s hr hl
  subst h2
  exact hnack h1 (h3.trans ha3)

/-- `RDREG` with both address bytes acknowledged, by the byte sampled (R121). -/
theorem exec_rdreg_of_second_ack (ha3 : a3 = low) :
    ∃ v : BitVec 8,
      (∀ j < 8, v.getLsbD (7 - j) = presentedAfter s (selectTrace dev reg a2 low ++ [Token.t] ++ rdbyteLead v j)) ∧
      exec (.rdreg dev reg) s = .next
        { s.afterTransaction dev reg 0#8 true (v.setWidth 32) (readTrace dev reg v a2) with
          sr := v, res := v, ack := low, fail := false, wstat := false } := by
  obtain ⟨-, -, -, hack, -, -⟩ := rdregReadsOneRegister dev reg s hr hl
  subst h2
  obtain ⟨v, hbits, hrun, -⟩ := hack h1 (h3.trans ha3)
  exact ⟨v, hbits, hrun⟩

end

end Sys2Proof.Machine

open Sys2Proof Sys2Proof.Machine

/-- Settles O17: eight samples leave nothing of the old value, and from a cleared register each of the 256 sums is checked. -/
theorem eightSamplesReplaceTheShiftRegister : Obligations.EightSamplesReplaceTheShiftRegister :=
  foldl_shiftIn_eq_assembleByte

/-- Settles O20: an environment that lists its levels presents them in turn, one for each sample. -/
theorem resultIsAFunctionOfTheSamples : Obligations.ResultIsAFunctionOfTheSamples := by
  intro dev reg val s sl ls hr hl hs
  have henvAfter {t : State} {tr : List Token} {levels : List Level} (henv : s.env = .levels levels)
      (ht : t.env = watch tr s.sclOut s.sdaOut s.env) : t.env = .levels (levels.drop (samples tr).length) := by
    rw [ht, henv, watch_levels]
  refine ⟨fun a1 a2 a3 henv => ?_, fun a1 a2 a3 r0 r1 r2 r3 r4 r5 r6 r7 henv => ?_⟩
  · have h1 : presentedAfter s (startTrace ++ wrbyteLead (addressByte dev Config.writeBit)) = a1 :=
      presentedAfter_levels henv (by simp)
    cases a1 with
    | true =>
      obtain ⟨-, hnack, -, -, -⟩ := wrregWritesOneRegister dev reg val s hr hl
      refine ⟨_, hnack h1, State.slot_of_answered rfl hs, (henvAfter henv rfl).trans ?_⟩
      simp
    | false =>
      have hrun := exec_wrreg_of_ack (reg := reg) (val := val) (a2 := a2) (a3 := a3) hr hl h1
        (presentedAfter_levels henv (by simp)) (presentedAfter_levels henv (by simp))
      refine ⟨_, hrun, State.slot_of_answered rfl hs, (henvAfter henv rfl).trans ?_⟩
      simp
  · have h1 : presentedAfter s (startTrace ++ wrbyteLead (addressByte dev Config.writeBit)) = a1 :=
      presentedAfter_levels henv (by simp)
    cases a1 with
    | true =>
      obtain ⟨-, hnack, -, -, -⟩ := rdregReadsOneRegister dev reg s hr hl
      refine ⟨_, hnack h1, State.slot_of_answered rfl hs, (henvAfter henv rfl).trans ?_⟩
      simp
    | false =>
      cases a3 with
      | true =>
        have hrun := exec_rdreg_of_second_nack (reg := reg) (a2 := a2) hr hl h1 (presentedAfter_levels henv (by simp))
          (presentedAfter_levels henv (by simp)) rfl
        refine ⟨_, hrun, State.slot_of_answered rfl hs, (henvAfter henv rfl).trans ?_⟩
        simp
      | false =>
        obtain ⟨v, hbits, hrun⟩ := exec_rdreg_of_second_ack (reg := reg) (a2 := a2) hr hl h1
          (presentedAfter_levels henv (by simp)) (presentedAfter_levels henv (by simp)) rfl
        have hv : v = assembleByte r0 r1 r2 r3 r4 r5 r6 r7 := by
          refine eq_assembleByte_of_bits fun j hj => (hbits j hj).trans (presentedAfter_levels henv ?_)
          have hindex : (samples (selectTrace dev reg a2 low ++ [Token.t] ++ rdbyteLead v j)).length = j + 3 := by
            simp [length_samples_rdbyteLead]
          simp only [hindex, List.getElem?_cons_succ]
          exact (List.getElem?_append_left hj).trans (List.getElem?_eq_getElem hj)
        subst hv
        refine ⟨_, hrun, State.slot_of_answered rfl hs, (henvAfter henv rfl).trans ?_⟩
        simp

/-- Settles O24: both runs are presented the same levels, so they take the same path and store the same byte. -/
theorem transactionsReadNothingLeftByAnother : Obligations.TransactionsReadNothingLeftByAnother := by
  intro dev d reg val r v sr rs b a f w q o s hr hl
  set s' : State :=
    { s with dev := d, reg := r, dat := v, dir := b, sr := sr, res := rs, seq := q, ack := a, fail := f, wstat := w, owner := o }
  have hpresented (tr : List Token) : presentedAfter s' tr = presentedAfter s tr := rfl
  constructor
  · cases h1 : presentedAfter s (startTrace ++ wrbyteLead (addressByte dev Config.writeBit)) with
    | true =>
      obtain ⟨-, hnack, -, -, -⟩ := wrregWritesOneRegister dev reg val s hr hl
      obtain ⟨-, hnack', -, -, -⟩ := wrregWritesOneRegister dev reg val s' hr hl
      refine ⟨_, hnack h1, (hnack' h1).trans ?_⟩
      simp only [State.afterTransaction]
      rfl
    | false =>
      obtain ⟨a2, h2⟩ : ∃ a2, presentedAfter s (startTrace ++ wrbyteTrace (addressByte dev Config.writeBit) low ++ [Token.t] ++
          wrbyteLead reg) = a2 := ⟨_, rfl⟩
      obtain ⟨a3, h3⟩ : ∃ a3, presentedAfter s (startTrace ++ wrbyteTrace (addressByte dev Config.writeBit) low ++ [Token.t] ++
          wrbyteTrace reg a2 ++ [Token.t] ++ wrbyteLead val) = a3 := ⟨_, rfl⟩
      have hrun := exec_wrreg_of_ack hr hl h1 h2 h3
      have hrun' := exec_wrreg_of_ack (s := s') hr hl ((hpresented _).trans h1) ((hpresented _).trans h2) ((hpresented _).trans h3)
      refine ⟨_, hrun, hrun'.trans ?_⟩
      simp only [State.afterTransaction]
      rfl
  · cases h1 : presentedAfter s (startTrace ++ wrbyteLead (addressByte dev Config.writeBit)) with
    | true =>
      obtain ⟨-, hnack, -, -, -⟩ := rdregReadsOneRegister dev reg s hr hl
      obtain ⟨-, hnack', -, -, -⟩ := rdregReadsOneRegister dev reg s' hr hl
      refine ⟨_, hnack h1, (hnack' h1).trans ?_⟩
      simp only [State.afterTransaction]
      rfl
    | false =>
      obtain ⟨a2, h2⟩ : ∃ a2, presentedAfter s (startTrace ++ wrbyteTrace (addressByte dev Config.writeBit) low ++ [Token.t] ++
          wrbyteLead reg) = a2 := ⟨_, rfl⟩
      cases h3 : presentedAfter s (startTrace ++ wrbyteTrace (addressByte dev Config.writeBit) low ++ [Token.t] ++
          wrbyteTrace reg a2 ++ [Token.t] ++ stopTrace ++ [Token.t] ++ startTrace ++
          wrbyteLead (addressByte dev Config.readBit)) with
      | true =>
        have hrun := exec_rdreg_of_second_nack hr hl h1 h2 h3 rfl
        have hrun' := exec_rdreg_of_second_nack (s := s') hr hl ((hpresented _).trans h1) ((hpresented _).trans h2)
          ((hpresented _).trans h3) rfl
        refine ⟨_, hrun, hrun'.trans ?_⟩
        simp only [State.afterTransaction]
        rfl
      | false =>
        obtain ⟨v, hbits, hrun⟩ := exec_rdreg_of_second_ack hr hl h1 h2 h3 rfl
        obtain ⟨v', hbits', hrun'⟩ := exec_rdreg_of_second_ack (s := s') hr hl ((hpresented _).trans h1) ((hpresented _).trans h2)
          ((hpresented _).trans h3) rfl
        obtain rfl : v = v' :=
          byte_eq_of_samples (f := fun lead => presentedAfter s (selectTrace dev reg a2 low ++ [Token.t] ++ lead)) hbits
            fun j hj => (hbits' j hj).trans (hpresented _)
        refine ⟨_, hrun, hrun'.trans ?_⟩
        simp only [State.afterTransaction]
        rfl

/-- Settles O21: each path is one trace, whose counts are the sums of those of its primitives. -/
theorem transactionsHaveFixedSizes : Obligations.TransactionsHaveFixedSizes := by
  intro dev reg val s hr hl
  constructor
  · obtain h | ⟨a2, a3, h⟩ := exec_wrreg_paths dev reg val hr hl
    · refine ⟨_, absentTrace dev, h, rfl, .inr ⟨rfl, ?_⟩⟩
      simp [minDuration, absentTrace, sampleCount_eq]
    · refine ⟨_, writeTrace dev reg val a2 a3, h, rfl, .inl ⟨rfl, ?_⟩⟩
      simp [minDuration, writeTrace, sampleCount_eq]
  · obtain h | ⟨a2, h⟩ | ⟨a2, v, h⟩ := exec_rdreg_paths dev reg hr hl
    · refine ⟨_, absentTrace dev, h, rfl, .inr (.inl ⟨rfl, ?_⟩)⟩
      simp [minDuration, absentTrace, sampleCount_eq]
    · refine ⟨_, unreadTrace dev reg a2, h, rfl, .inr (.inr ⟨rfl, ?_⟩)⟩
      simp [minDuration, unreadTrace, selectTrace, sampleCount_eq]
    · refine ⟨_, readTrace dev reg v a2, h, rfl, .inl ⟨rfl, ?_⟩⟩
      simp [minDuration, readTrace, selectTrace, sampleCount_eq]

/-- Settles O22: the patterns of each path's trace, entered idle. -/
theorem everyFrameHasOneStartAndOneStop : Obligations.EveryFrameHasOneStartAndOneStop := by
  intro dev reg val s hr hl hscl hsda
  rw [hscl, hsda]
  constructor
  · obtain h | ⟨a2, a3, h⟩ := exec_wrreg_paths dev reg val hr hl
    · exact ⟨_, _, h, rfl, patterns_absentTrace dev⟩
    · exact ⟨_, _, h, rfl, patterns_writeTrace ..⟩
  · obtain h | ⟨a2, h⟩ | ⟨a2, v, h⟩ := exec_rdreg_paths dev reg hr hl
    · exact ⟨_, _, h, rfl, .inl ⟨patterns_absentTrace dev, rfl⟩⟩
    · exact ⟨_, _, h, rfl, .inr (patterns_unreadTrace ..)⟩
    · exact ⟨_, _, h, rfl, .inr (patterns_readTrace ..)⟩

end

section
/-!
SUPPORT. The timeout is written by `INIT` and read by nothing (R33).
-/

namespace Sys2Proof.Machine

/-- The state with another value in `TIMEOUT`. -/
def State.setTimeout (x : BitVec 32) (s : State) : State := { s with timeout := x }

section
variable (x y : BitVec 32) (s : State)

@[simp] theorem State.setTimeout_setTimeout : (s.setTimeout y).setTimeout x = s.setTimeout x := rfl
@[simp] theorem State.lock_setTimeout : (s.setTimeout x).lock = s.lock := rfl
@[simp] theorem State.regd_setTimeout : (s.setTimeout x).regd = s.regd := rfl
@[simp] theorem State.seq_setTimeout : (s.setTimeout x).seq = s.seq := rfl
@[simp] theorem State.sr_setTimeout : (s.setTimeout x).sr = s.sr := rfl
@[simp] theorem State.ack_setTimeout : (s.setTimeout x).ack = s.ack := rfl
@[simp] theorem State.dev_setTimeout : (s.setTimeout x).dev = s.dev := rfl
@[simp] theorem State.reg_setTimeout : (s.setTimeout x).reg = s.reg := rfl
@[simp] theorem State.dat_setTimeout : (s.setTimeout x).dat = s.dat := rfl
@[simp] theorem State.sdaIn_setTimeout : (s.setTimeout x).sdaIn = s.sdaIn := rfl
@[simp] theorem State.issuer_setTimeout : (s.setTimeout x).issuer = s.issuer := rfl
@[simp] theorem State.moves_setTimeout : (s.setTimeout x).moves = s.moves := rfl
@[simp] theorem State.slot?_setTimeout (p : Nat) : (s.setTimeout x).slot? p = s.slot? p := rfl

/-! ### The operations on the state -/

@[simp] theorem State.perform_setTimeout (op : LineOp) : (s.setTimeout x).perform op = (s.perform op).setTimeout x := rfl

@[simp] theorem State.loadSr_setTimeout (v : BitVec 8) : (s.setTimeout x).loadSr v = (s.loadSr v).setTimeout x := rfl

@[simp] theorem State.recordDeviceNotFound_setTimeout :
    (s.setTimeout x).recordDeviceNotFound = s.recordDeviceNotFound.setTimeout x := rfl

@[simp] theorem State.captureWriteStatus_setTimeout :
    (s.setTimeout x).captureWriteStatus = s.captureWriteStatus.setTimeout x := rfl

@[simp] theorem State.captureResult_setTimeout : (s.setTimeout x).captureResult = s.captureResult.setTimeout x := rfl

@[simp] theorem State.refuse_setTimeout (p : Nat) (code : ResultCode) :
    (s.setTimeout x).refuse p code = (s.refuse p code).setTimeout x := rfl

@[simp] theorem State.acquire_setTimeout (p : Nat) (k : CmdK) (dev : BitVec 7) (reg dat : BitVec 8) :
    (s.setTimeout x).acquire p k dev reg dat = (s.acquire p k dev reg dat).setTimeout x := rfl

@[simp] theorem State.release_setTimeout : (s.setTimeout x).release = s.release.setTimeout x := rfl

theorem State.post_setTimeout (p : Nat) (cw : BitVec 32) : (s.setTimeout x).post p cw = (s.post p cw).setTimeout x := by
  simp only [State.post, State.slot?_setTimeout]
  split
  · split <;> rfl
  · rfl

theorem State.take_setTimeout (p : Nat) : (s.setTimeout x).take p = (s.take p).setTimeout x := by
  simp only [State.take, State.slot?_setTimeout]
  split
  · split <;> rfl
  · rfl

/-! ### The primitives and the transactions -/

@[simp] theorem State.runStart_setTimeout : (s.setTimeout x).runStart = s.runStart.setTimeout x := rfl
@[simp] theorem State.runStop_setTimeout : (s.setTimeout x).runStop = s.runStop.setTimeout x := rfl

@[simp] theorem State.runNoack_setTimeout : (s.setTimeout x).runNoack = s.runNoack.setTimeout x := by
  simp only [State.runNoack, perform_setTimeout]

@[simp] theorem State.sendCell_setTimeout (j : Nat) : (s.setTimeout x).sendCell j = (s.sendCell j).setTimeout x := rfl
@[simp] theorem State.ackSlot_setTimeout : (s.setTimeout x).ackSlot = s.ackSlot.setTimeout x := rfl
@[simp] theorem State.recvCell_setTimeout : (s.setTimeout x).recvCell = s.recvCell.setTimeout x := rfl

@[simp] theorem State.runWrbyte_setTimeout : (s.setTimeout x).runWrbyte = s.runWrbyte.setTimeout x := by
  simp only [State.runWrbyte, List.foldl_cons, List.foldl_nil, sendCell_setTimeout, ackSlot_setTimeout]

@[simp] theorem State.callWrbyte_setTimeout (v : BitVec 8) :
    (s.setTimeout x).callWrbyte v = (s.callWrbyte v).setTimeout x :=
  State.runWrbyte_setTimeout x (s.loadSr v)

theorem State.recvCells_setTimeout (n : Nat) : State.recvCells n (s.setTimeout x) = (State.recvCells n s).setTimeout x := by
  induction n generalizing s with
  | zero => rfl
  | succ n ih => rw [State.recvCells, State.recvCells, recvCell_setTimeout, ih]

@[simp] theorem State.runRdbyte_setTimeout : (s.setTimeout x).runRdbyte = s.runRdbyte.setTimeout x := by
  simp only [State.runRdbyte, perform_setTimeout, loadSr_setTimeout, recvCells_setTimeout]

@[simp] theorem State.ifAcknowledged_setTimeout {body : State → State}
    (hbody : ∀ u : State, body (u.setTimeout x) = (body u).setTimeout x) :
    (s.setTimeout x).ifAcknowledged body = (s.ifAcknowledged body).setTimeout x := by
  simp only [State.ifAcknowledged, ack_setTimeout, recordDeviceNotFound_setTimeout, hbody]
  split <;> rfl

theorem State.withLock_setTimeout {body : State → State}
    (hbody : ∀ u : State, body (u.setTimeout x) = (body u).setTimeout x) (k : CmdK) (dev : BitVec 7) (reg dat : BitVec 8) :
    (s.setTimeout x).withLock k dev reg dat body = (s.withLock k dev reg dat body).setTimeout x := by
  simp only [State.withLock, regd_setTimeout, lock_setTimeout, issuer_setTimeout, refuse_setTimeout, acquire_setTimeout, hbody]
  split
  · rfl
  · split <;> rfl

@[simp] theorem State.sendRegisterAndData_setTimeout :
    (s.setTimeout x).sendRegisterAndData = s.sendRegisterAndData.setTimeout x := by
  simp [State.sendRegisterAndData]

@[simp] theorem State.receiveData_setTimeout : (s.setTimeout x).receiveData = s.receiveData.setTimeout x := by
  simp [State.receiveData]

@[simp] theorem State.selectAndRead_setTimeout : (s.setTimeout x).selectAndRead = s.selectAndRead.setTimeout x := by
  simp [State.selectAndRead]

@[simp] theorem State.writeTransaction_setTimeout :
    (s.setTimeout x).writeTransaction = s.writeTransaction.setTimeout x := by
  simp [State.writeTransaction]

@[simp] theorem State.readTransaction_setTimeout :
    (s.setTimeout x).readTransaction = s.readTransaction.setTimeout x := by
  simp [State.readTransaction]

/-! ### The engine -/

theorem State.enterStep_setTimeout (t : Nat) : (s.setTimeout x).enterStep t = (s.enterStep t).setTimeout x := by
  simp only [State.enterStep, seq_setTimeout]
  split <;> rfl

theorem State.captureAtEnd_setTimeout (k : CmdK) (t : Nat) :
    (s.setTimeout x).captureAtEnd k t = (s.captureAtEnd k t).setTimeout x := by
  unfold State.captureAtEnd
  split <;> rfl

theorem State.finishStep_setTimeout : (s.setTimeout x).finishStep = s.finishStep.setTimeout x := by
  simp only [State.finishStep, seq_setTimeout, captureAtEnd_setTimeout, ack_setTimeout, recordDeviceNotFound_setTimeout,
    enterStep_setTimeout]
  split <;> rfl

theorem State.storeSample_setTimeout (op : LineOp) (r : Level) :
    (s.setTimeout x).storeSample op r = (s.storeSample op r).setTimeout x := by
  simp only [State.storeSample, seq_setTimeout, sr_setTimeout, loadSr_setTimeout]
  cases s.seq.prim with
  | nothing | start | stop | noack => rfl
  | wrbyte =>
    dsimp only
    split <;> rfl
  | rdbyte =>
    by_cases hop : op = .getd
    · simp only [hop, if_true]
    · by_cases hk : s.seq.pstep = 0
      · simp only [hop, hk, if_true, if_false]
      · simp only [hop, hk, if_false]

theorem State.advance_setTimeout : (s.setTimeout x).advance = s.advance.setTimeout x := by
  simp only [State.advance, seq_setTimeout, finishStep_setTimeout]
  split <;> rfl

/-! ### Steps that are a continuation of the other run -/

theorem andThen_andThen (o : Host.Outcome State Fault Refusal) (f g : State → State) :
    andThen (andThen o f) g = andThen o (fun s => g (f s)) := by
  cases o <;> rfl

/-- Every instruction but `INIT` leaves `TIMEOUT` as it is and does not read it. -/
theorem exec_setTimeout {i : Instr} (hi : i ≠ .init) : exec i (s.setTimeout x) = andThen (exec i s) (State.setTimeout x) := by
  cases i with
  | init => exact absurd rfl hi
  | wrreg dev reg val => exact congrArg Host.Outcome.next (State.withLock_setTimeout x s (by simp) ..)
  | rdreg dev reg => exact congrArg Host.Outcome.next (State.withLock_setTimeout x s (by simp) ..)
  | noack => exact congrArg Host.Outcome.next (State.runNoack_setTimeout ..)
  | wrbyte => exact congrArg Host.Outcome.next (State.runWrbyte_setTimeout ..)
  | rdbyte => exact congrArg Host.Outcome.next (State.runRdbyte_setTimeout ..)
  | start | stop | setc l | setd l | getd | dly => rfl

theorem State.engineStep_setTimeout : (s.setTimeout x).engineStep = andThen s.engineStep (State.setTimeout x) := by
  simp only [State.engineStep, decode_lop_code, exec_lineOp, andThen, lock_setTimeout, seq_setTimeout, sr_setTimeout,
    sdaIn_setTimeout, perform_setTimeout, storeSample_setTimeout, advance_setTimeout, release_setTimeout]
  split
  · rfl
  · split <;> rfl

theorem State.primitiveStep_setTimeout : (s.setTimeout x).primitiveStep = andThen s.primitiveStep (State.setTimeout x) := by
  have hat : (s.setTimeout x).primitiveAt = s.primitiveAt := rfl
  simp only [State.primitiveStep, hat]
  split
  · exact State.engineStep_setTimeout x s
  · next p _ =>
    split
    · rfl
    · next i hd =>
      have hi : i ≠ .init := by
        rintro rfl
        cases p <;> cases hd
      simp only [exec_setTimeout x s hi, andThen_andThen, State.finishStep_setTimeout]

/-! ### Steps that agree once the timeout is cleared -/

theorem exec_clear_timeout (i : Instr) :
    andThen (exec i (s.setTimeout x)) (State.setTimeout 0#32) = andThen (exec i s) (State.setTimeout 0#32) := by
  by_cases hi : i = .init
  · subst hi
    cases hr : s.regd with
    | true =>
      simp only [exec, execInit, State.regd_setTimeout, hr, if_true, State.issuer_setTimeout,
        State.refuse_setTimeout, andThen, State.setTimeout_setTimeout]
    | false =>
      simp only [exec, execInit, State.regd_setTimeout, hr]
      rfl
  · simp only [exec_setTimeout x s hi, andThen_andThen, State.setTimeout_setTimeout]

theorem grantInstr_clear_timeout (i : Instr) :
    andThen (grantInstr i (s.setTimeout x)) (State.setTimeout 0#32) =
      andThen (grantInstr i s) (State.setTimeout 0#32) := by
  unfold grantInstr
  split
  · simp only [State.withLock_setTimeout x s (body := id) fun _ => rfl]
    rfl
  · exact exec_clear_timeout x s i

/-- The answer to a posted command agrees when what it runs does. -/
theorem State.answer_clear_timeout {run : Instr → State → Host.Outcome State Fault Refusal}
    (hrun : ∀ (u : State) (i : Instr), andThen (run i (u.setTimeout x)) (State.setTimeout 0#32) =
      andThen (run i u) (State.setTimeout 0#32)) (p : Nat) :
    andThen ((s.setTimeout x).answer p run) (State.setTimeout 0#32) =
      andThen (s.answer p run) (State.setTimeout 0#32) := by
  simp only [State.answer, slot?_setTimeout]
  split
  · rfl
  · split
    · split
      · rfl
      · exact hrun { s with issuer := p } _
    · rfl

theorem runMove_clear_timeout (m : Move) :
    andThen (runMove m (s.setTimeout x)) (State.setTimeout 0#32) = andThen (runMove m s) (State.setTimeout 0#32) := by
  cases m with
  | post p cw => simp only [runMove, State.post_setTimeout, andThen, State.setTimeout_setTimeout]
  | take p => simp only [runMove, State.take_setTimeout, andThen, State.setTimeout_setTimeout]
  | present v => rfl
  | grant p => exact State.answer_clear_timeout x s (grantInstr_clear_timeout x) p
  | engine => simp only [runMove, State.engineStep_setTimeout, andThen_andThen, State.setTimeout_setTimeout]
  | primitive => simp only [runMove, State.primitiveStep_setTimeout, andThen_andThen, State.setTimeout_setTimeout]
  | command p => exact State.answer_clear_timeout x s (exec_clear_timeout x) p

theorem State.popMove_setTimeout : (s.setTimeout x).popMove = s.popMove.setTimeout x := by
  cases hm : s.moves <;> simp only [State.popMove, State.moves_setTimeout, hm] <;> rfl

end

end Sys2Proof.Machine

open Sys2Proof Sys2Proof.Machine

/-- Settles O50: every move goes on as before with another timeout, but that `INIT` overwrites it. -/
theorem timeoutIsNeverRead : Obligations.TimeoutIsNeverRead := by
  intro s x
  have hmove := runMove_clear_timeout x s.popMove s.nextMove
  rw [← State.popMove_setTimeout] at hmove
  exact hmove

end

section
/-!
SUPPORT. The reference responder over the traces of the primitives (R66).
-/

namespace Sys2Proof.Machine

/-! ### One clock pulse -/

/-- The responder after a clock pulse with the data line at a level throughout. -/
def Responder.pulse (r : Responder) (sda : Level) : Responder := (r.rise sda).fall

/-- A responder that is being sent bytes. -/
def Responder.receives (r : Responder) : Prop := r.phase = .addr ∨ r.phase = .wreg ∨ r.phase = .wdata

section
variable {r : Responder} {b : Level}

/-- A falling clock inside a byte changes nothing. -/
theorem Responder.fall_of_inside (hn : r.n % 9 ≠ 0) : r.fall = r := if_neg fun h => hn h.2

/-- A bit that is not the eighth of its byte is shifted in. -/
theorem Responder.rise_of_receives (hp : r.receives) (hn : r.n % 9 < 7) :
    r.rise b = { r with n := r.n + 1, rs := shiftIn r.rs b } := by
  have h0 : (r.n + 1) % 9 ≠ 0 := by omega
  have h8 : (r.n + 1) % 9 ≠ 8 := by omega
  obtain hp | hp | hp := hp <;> simp [Responder.rise, hp, h0, h8]

theorem Responder.pulse_of_receives (hp : r.receives) (hn : r.n % 9 < 7) :
    r.pulse b = { r with n := r.n + 1, rs := shiftIn r.rs b } := by
  rw [pulse, rise_of_receives hp hn]
  exact fall_of_inside (show (r.n + 1) % 9 ≠ 0 by omega)

theorem Responder.n_rise (hp : r.receives) : (r.rise b).n = r.n + 1 := by
  obtain hp | hp | hp := hp
  all_goals
    simp only [Responder.rise, hp]
    split_ifs <;> rfl

/-- The ninth slot of a byte sent to the responder: it answers low. -/
theorem Responder.rise_ninth (hp : r.receives) (hn : r.n % 9 = 8) : r.rise b = { r with n := r.n + 1 } := by
  have h0 : (r.n + 1) % 9 = 0 := by omega
  obtain hp | hp | hp := hp <;> simp [Responder.rise, hp, h0]

theorem Responder.answer_rise_ninth (hp : r.receives) (hn : r.n % 9 = 8) : (r.rise b).answer = low := by
  have h0 : (r.n + 1) % 9 = 0 := by omega
  rw [rise_ninth hp hn]
  obtain hp | hp | hp := hp <;> simp [Responder.answer, hp, h0]

theorem Responder.pulse_of_dead (hp : r.phase = .dead) : r.pulse b = r := by
  simp [Responder.pulse, Responder.rise, Responder.fall, hp]

theorem Responder.rise_of_dead (hp : r.phase = .dead) : r.rise b = r := by
  simp [Responder.rise, hp]

theorem Responder.answer_of_dead (hp : r.phase = .dead) : r.answer = high := by
  simp [Responder.answer, hp]

/-- A rising clock between two bytes moves the counter and the shift value alone. -/
theorem Responder.rise_of_boundary (hn : r.n % 9 = 0) : ∃ n rs, r.rise b = { r with n := n, rs := rs } := by
  have h0 : (r.n + 1) % 9 ≠ 0 := by omega
  have h8 : (r.n + 1) % 9 ≠ 8 := by omega
  cases hp : r.phase with
  | off | dead => exact ⟨r.n, r.rs, by simp only [Responder.rise, hp]; exact hp ▸ rfl⟩
  | addr | wreg | wdata => exact ⟨r.n + 1, shiftIn r.rs b, by simp [Responder.rise, hp, h0, h8]⟩
  | rdata => exact ⟨r.n + 1, r.rs, by simp [Responder.rise, hp]⟩

end

/-! ### A byte sent to the responder -/

/-- The eight levels of a byte as they are sent, bit 7 first. -/
def byteBits (v : BitVec 8) : List Level :=
  [v.getLsbD 7, v.getLsbD 6, v.getLsbD 5, v.getLsbD 4, v.getLsbD 3, v.getLsbD 2, v.getLsbD 1, v.getLsbD 0]

theorem foldl_shiftIn_byteBits (v w : BitVec 8) : (byteBits v).foldl shiftIn w = v := by
  rw [byteBits, foldl_shiftIn_eq_assembleByte]
  refine (eq_assembleByte_of_bits fun j hj => ?_).symm
  simp only [List.length_cons, List.length_nil] at hj
  interval_cases j <;> rfl

/-- The responder after the eight data pulses of a byte. -/
def Responder.takeByte (r : Responder) (v : BitVec 8) : Responder := (byteBits v).foldl Responder.pulse r

section
variable {r : Responder} {v : BitVec 8}

theorem Responder.foldl_pulse (hp : r.receives) (bs : List Level) (h : r.n % 9 + bs.length < 8) :
    bs.foldl Responder.pulse r = { r with n := r.n + bs.length, rs := bs.foldl shiftIn r.rs } := by
  induction bs generalizing r with
  | nil => rfl
  | cons b bs ih =>
    simp only [List.length_cons] at h
    rw [List.foldl_cons, pulse_of_receives hp (by omega), ih (r := { r with n := r.n + 1, rs := shiftIn r.rs b }) hp]
    · simp only [List.length_cons, List.foldl_cons, Nat.add_assoc, Nat.add_comm 1]
    · show (r.n + 1) % 9 + bs.length < 8
      omega

/-- The eighth bit of a byte completes it. -/
theorem Responder.takeByte_eq_rise (hp : r.receives) (hn : r.n % 9 = 0) :
    ∃ rs b, shiftIn rs b = v ∧ r.takeByte v = Responder.rise { r with n := r.n + 7, rs := rs } b := by
  have hfold := foldl_shiftIn_byteBits v r.rs
  obtain ⟨bs, b, hbits, hlen⟩ : ∃ bs b, byteBits v = bs ++ [b] ∧ bs.length = 7 :=
    ⟨(byteBits v).take 7, v.getLsbD 0, rfl, rfl⟩
  rw [hbits, List.foldl_append] at hfold
  refine ⟨bs.foldl shiftIn r.rs, b, hfold, ?_⟩
  rw [takeByte, hbits, List.foldl_append, foldl_pulse hp bs (by omega), hlen]
  refine fall_of_inside ?_
  rw [n_rise (r := { r with n := r.n + 7, rs := bs.foldl shiftIn r.rs }) hp]
  show (r.n + 7 + 1) % 9 ≠ 0
  omega

theorem Responder.takeByte_addr_match (hp : r.phase = .addr) (hn : r.n % 9 = 0) (ha : v.extractLsb' 1 7 = r.ra) :
    r.takeByte v = { r with n := r.n + 8, rs := v } := by
  obtain ⟨rs, b, hrs, htake⟩ := takeByte_eq_rise (v := v) (.inl hp) hn
  have h8 : (r.n + 7 + 1) % 9 = 8 := by omega
  rw [htake]
  simp [Responder.rise, hp, h8, hrs, ha]

theorem Responder.takeByte_addr_mismatch (hp : r.phase = .addr) (hn : r.n % 9 = 0) (ha : v.extractLsb' 1 7 ≠ r.ra) :
    r.takeByte v = { r with n := r.n + 8, rs := v, phase := .dead } := by
  obtain ⟨rs, b, hrs, htake⟩ := takeByte_eq_rise (v := v) (.inl hp) hn
  have h8 : (r.n + 7 + 1) % 9 = 8 := by omega
  rw [htake]
  simp [Responder.rise, hp, h8, hrs, ha]

theorem Responder.takeByte_wreg (hp : r.phase = .wreg) (hn : r.n % 9 = 0) :
    r.takeByte v = { r with n := r.n + 8, rs := v, rp := v } := by
  obtain ⟨rs, b, hrs, htake⟩ := takeByte_eq_rise (v := v) (.inr (.inl hp)) hn
  have h8 : (r.n + 7 + 1) % 9 = 8 := by omega
  rw [htake]
  simp [Responder.rise, hp, h8, hrs]

theorem Responder.takeByte_wdata (hp : r.phase = .wdata) (hn : r.n % 9 = 0) :
    r.takeByte v = { r with n := r.n + 8, rs := v, rm := Memory.write r.rm r.rp.toNat v } := by
  obtain ⟨rs, b, hrs, htake⟩ := takeByte_eq_rise (v := v) (.inr (.inr hp)) hn
  have h8 : (r.n + 7 + 1) % 9 = 8 := by omega
  rw [htake]
  simp [Responder.rise, hp, h8, hrs]

end

/-! ### The traces of the primitives -/

/-- The responder after a Start: it expects an address byte. -/
def Responder.started (r : Responder) : Responder := { r with phase := .addr, n := 0, rs := 0#8 }

section
variable (r : Responder) (rest : List Token) (scl sda : Level)

theorem watch_delay_append : watch (.t :: rest) scl sda (.reference r) = watch rest scl sda (.reference r) := by
  simp [watch, tokenOp, sclAfter, sdaAfter, Environment.observe]

theorem watch_startTrace_append :
    watch (startTrace ++ rest) high high (.reference r) = watch rest low low (.reference r.started) := rfl

/-- One cell of `WRBYTE` is one pulse (R104). -/
theorem watch_sendTrace_append (b : Level) :
    watch (sendTrace b ++ rest) low sda (.reference r) = watch rest low b (.reference (r.pulse b)) := by
  cases b <;> cases sda <;> rfl

/-- The operations before the sample of `WRBYTE`: the byte, then the rise of the ninth slot (R104). -/
theorem watch_wrbyteLead (v : BitVec 8) :
    watch (wrbyteLead v) low sda (.reference r) = .reference ((r.takeByte v).rise high) := by
  have hslot (u : Responder) (l : Level) : watch [.d high, .c high, .t] low l (.reference u) = .reference (u.rise high) := by
    cases l <;> rfl
  simp only [wrbyteLead, List.append_assoc, watch_sendTrace_append, hslot]
  rfl

theorem watch_wrbyteTrace_append (v : BitVec 8) (a : Level) :
    watch (wrbyteTrace v a ++ rest) low sda (.reference r) =
      watch rest low high (.reference ((r.takeByte v).pulse high)) := by
  have hslot (u : Responder) (l : Level) : watch ([.d high, .c high, .t] ++ ([.g a, .c low] ++ rest)) low l (.reference u) =
      watch rest low high (.reference (u.pulse high)) := by
    cases l <;> rfl
  simp only [wrbyteTrace, wrbyteLead, List.append_assoc, watch_sendTrace_append, hslot]
  rfl

theorem watch_noackTrace_append :
    watch (noackTrace ++ rest) low sda (.reference r) = watch rest low low (.reference (r.pulse high)) := by
  cases sda <;> rfl

theorem watch_stopTrace_append :
    watch (stopTrace ++ rest) low sda (.reference r) =
      watch rest high high (.reference { r.rise low with phase := .off }) := by
  cases sda <;> rfl

/-- One cell of `RDBYTE` is one pulse with the data line released (R105). -/
theorem watch_recvTrace_append (b : Level) :
    watch (recvTrace b ++ rest) low high (.reference r) = watch rest low high (.reference (r.pulse high)) := by
  rfl

/-- The operations of `RDBYTE` before the sample of cell `j`: `j` pulses and a rise (R105). -/
theorem watch_rdbyteLead (v : BitVec 8) (j : Nat) :
    watch (rdbyteLead v j) low sda (.reference r) =
      .reference (((fun u : Responder => u.pulse high)^[j] r).rise high) := by
  have hcells : ∀ (js : List Nat) (u : Responder),
      watch (js.flatMap (fun i => recvTrace (v.getLsbD (7 - i))) ++ [.t, .c high]) low high (.reference u) =
        .reference (((fun u : Responder => u.pulse high)^[js.length] u).rise high) := by
    intro js
    induction js with
    | nil => exact fun u => rfl
    | cons i js ih =>
      intro u
      rw [List.flatMap_cons, List.append_assoc, watch_recvTrace_append, ih]
      rfl
  have hrelease : watch (rdbyteLead v j) low sda (.reference r) =
      watch ((List.range j).flatMap (fun i => recvTrace (v.getLsbD (7 - i))) ++ [.t, .c high]) low high (.reference r) := by
    cases sda <;> rfl
  rw [hrelease, hcells, List.length_range]

theorem watch_rdbyteTrace_append (v : BitVec 8) :
    watch (rdbyteTrace v ++ rest) low sda (.reference r) =
      watch rest low high (.reference ((fun u : Responder => u.pulse high)^[8] r)) := by
  have hrelease (tr : List Token) : watch ([.d high] ++ tr) low sda (.reference r) = watch tr low high (.reference r) := by
    cases sda <;> rfl
  simp only [rdbyteTrace, List.append_assoc, hrelease, watch_recvTrace_append]
  rfl

end

end Sys2Proof.Machine
end

section
/-!
SUPPORT. The reference responder over the frames of a transaction (R66, R120, R121).
-/

namespace Sys2Proof.Machine

/-! ### What a byte and its ninth slot do in each phase -/

/-- The responder of whose register `reg` the write frame has reached the data byte. -/
def Responder.selected (r : Responder) (reg : BitVec 8) : Responder :=
  { r with phase := .wdata, n := 18, rp := reg, rs := 0#8 }

/-- The responder that has been addressed for reading. -/
def Responder.reading (r : Responder) : Responder := { r with phase := .rdata, n := 9, rs := 0#8 }

section
variable {r : Responder} {b : Level}

theorem Responder.takeByte_ownAddress (dirbit : Level) :
    r.started.takeByte (addressByte r.ra dirbit) = { r.started with n := 8, rs := addressByte r.ra dirbit } :=
  takeByte_addr_match (r := r.started) rfl rfl (addressByte_dev r.ra dirbit)

theorem Responder.answer_ownAddress (dirbit : Level) :
    ((r.started.takeByte (addressByte r.ra dirbit)).rise b).answer = low := by
  rw [takeByte_ownAddress]
  exact answer_rise_ninth (.inl rfl) rfl

theorem Responder.pulse_ownAddress_write :
    (r.started.takeByte (addressByte r.ra Config.writeBit)).pulse b = { r with phase := .wreg, n := 9, rs := 0#8 } := by
  rw [takeByte_ownAddress, pulse, rise_ninth (.inl rfl) rfl]
  simp only [Responder.fall, Responder.started, addressByte_dirbit]
  rfl

theorem Responder.pulse_ownAddress_read :
    (r.started.takeByte (addressByte r.ra Config.readBit)).pulse b = r.reading := by
  rw [takeByte_ownAddress, pulse, rise_ninth (.inl rfl) rfl]
  simp only [Responder.fall, Responder.started, addressByte_dirbit]
  rfl

/-- A responder at another address is dead from the eighth bit on. -/
theorem Responder.takeByte_otherAddress {dev : BitVec 7} (dirbit : Level) (h : r.ra ≠ dev) :
    (r.started.takeByte (addressByte dev dirbit)) =
      { r with phase := .dead, n := 8, rs := addressByte dev dirbit } :=
  takeByte_addr_mismatch (r := r.started) rfl rfl (by rw [addressByte_dev]; exact h.symm)

theorem Responder.takeByte_register (reg : BitVec 8) :
    Responder.takeByte { r with phase := .wreg, n := 9, rs := 0#8 } reg = { r with phase := .wreg, n := 17, rs := reg, rp := reg } :=
  takeByte_wreg rfl (show 9 % 9 = 0 from rfl)

theorem Responder.pulse_register (reg : BitVec 8) :
    (Responder.takeByte { r with phase := .wreg, n := 9, rs := 0#8 } reg).pulse b = r.selected reg := by
  rw [takeByte_register, pulse, rise_ninth (.inr (.inl rfl)) (show 17 % 9 = 8 from rfl)]
  simp [Responder.fall, Responder.selected]

theorem Responder.answer_register (reg : BitVec 8) :
    ((Responder.takeByte { r with phase := .wreg, n := 9, rs := 0#8 } reg).rise b).answer = low := by
  rw [takeByte_register]
  exact answer_rise_ninth (.inr (.inl rfl)) (show 17 % 9 = 8 from rfl)

theorem Responder.takeByte_data (reg val : BitVec 8) :
    (r.selected reg).takeByte val = { r.selected reg with n := 26, rs := val, rm := Memory.write r.rm reg.toNat val } :=
  takeByte_wdata rfl (show 18 % 9 = 0 from rfl)

theorem Responder.pulse_data (reg val : BitVec 8) :
    ((r.selected reg).takeByte val).pulse b = { r.selected reg with n := 27, rm := Memory.write r.rm reg.toNat val } := by
  rw [takeByte_data, pulse, rise_ninth (.inr (.inr rfl)) (show 26 % 9 = 8 from rfl)]
  simp [Responder.fall, Responder.selected]

theorem Responder.answer_data (reg val : BitVec 8) : (((r.selected reg).takeByte val).rise b).answer = low := by
  rw [takeByte_data]
  exact answer_rise_ninth (.inr (.inr rfl)) (show 26 % 9 = 8 from rfl)

/-- The cells of a read frame count on, up to the eighth. -/
theorem Responder.iterate_pulse_reading {j : Nat} (hj : j ≤ 8) :
    (fun u : Responder => u.pulse b)^[j] r.reading = { r.reading with n := 9 + j } := by
  induction j with
  | zero => rfl
  | succ j ih =>
    have h0 : (9 + j + 1) % 9 ≠ 0 := by omega
    rw [Function.iterate_succ_apply', ih (by omega)]
    exact fall_of_inside (r := { r.reading with n := 9 + j + 1 }) h0

/-- Cell `j` of a read frame presents bit `7 - j` of the register selected (R66). -/
theorem Responder.answer_reading {j : Nat} (hj : j < 8) :
    (((fun u : Responder => u.pulse b)^[j] r.reading).rise b).answer = (Memory.read r.rm r.rp.toNat).getLsbD (7 - j) := by
  rw [iterate_pulse_reading hj.le]
  have hlow : 10 ≤ 9 + j + 1 := by omega
  have hhigh : 9 + j + 1 ≤ 17 := by omega
  simp only [Responder.answer, Responder.rise, Responder.reading, hlow, hhigh, decide_true, Bool.and_self, if_true,
    show 17 - (9 + j + 1) = 7 - j by omega]

/-- The not-acknowledge ends the read frame. -/
theorem Responder.pulse_noack :
    Responder.pulse { r.reading with n := 17 } b = { r with phase := .dead, n := 18, rs := 0#8 } := by
  simp [Responder.pulse, Responder.rise, Responder.fall, Responder.reading]

end

/-! ### The frames -/

section
variable (r : Responder) (reg val v : BitVec 8) (a1 a2 a3 : Level) (rest : List Token)

theorem watch_writeAddress_append :
    watch (startTrace ++ (wrbyteTrace (addressByte r.ra Config.writeBit) a1 ++ rest)) high high (.reference r) =
      watch rest low high (.reference { r with phase := .wreg, n := 9, rs := 0#8 }) := by
  rw [watch_startTrace_append, watch_wrbyteTrace_append, Responder.pulse_ownAddress_write]

theorem watch_address (dev : BitVec 7) (dirbit : Level) :
    watch (startTrace ++ wrbyteLead (addressByte dev dirbit)) high high (.reference r) =
      .reference ((r.started.takeByte (addressByte dev dirbit)).rise high) := by
  rw [watch_startTrace_append, watch_wrbyteLead]

theorem watch_rdbyteTrace_reading (sda : Level) :
    watch (rdbyteTrace v ++ rest) low sda (.reference r.reading) =
      watch rest low high (.reference { r.reading with n := 17 }) := by
  rw [watch_rdbyteTrace_append, Responder.iterate_pulse_reading le_rfl]

/-- A Stop at the end of a byte, then: the counter and the shift value are whatever they are. -/
theorem watch_stopTrace_of_boundary {u : Responder} (hn : u.n % 9 = 0) (sda : Level) :
    ∃ n rs, watch (stopTrace ++ rest) low sda (.reference u) =
      watch rest high high (.reference { u with phase := .off, n := n, rs := rs }) := by
  obtain ⟨n, rs, hrise⟩ := Responder.rise_of_boundary (b := low) hn
  exact ⟨n, rs, by rw [watch_stopTrace_append, hrise]⟩

/-- The first frame of an `RDREG` leaves the register selected when the second begins (R126). -/
theorem watch_secondStart_append :
    watch (startTrace ++ (wrbyteTrace (addressByte r.ra Config.writeBit) a1 ++ (.t :: (wrbyteTrace reg a2 ++
        (.t :: (stopTrace ++ (.t :: (startTrace ++ rest)))))))) high high (.reference r) =
      watch rest low low (.reference { r with rp := reg }.started) := by
  simp only [watch_writeAddress_append, watch_delay_append, watch_wrbyteTrace_append, Responder.pulse_register]
  obtain ⟨n, rs, hstop⟩ := watch_stopTrace_of_boundary (.t :: (startTrace ++ rest)) (u := r.selected reg)
    (show 18 % 9 = 0 from rfl) high
  rw [hstop, watch_delay_append, watch_startTrace_append]
  rfl

theorem watch_selectTrace_append :
    watch (selectTrace r.ra reg a2 a3 ++ rest) high high (.reference r) =
      watch rest low high (.reference { r with rp := reg }.reading) := by
  simp only [selectTrace, List.append_assoc, List.cons_append, List.nil_append, watch_secondStart_append, watch_wrbyteTrace_append]
  rw [Responder.pulse_ownAddress_read (r := { r with rp := reg })]

theorem watch_writeTrace :
    ∃ n rs, watch (writeTrace r.ra reg val a2 a3) high high (.reference r) =
      .reference { r with rm := Memory.write r.rm reg.toNat val, rp := reg, phase := .off, n := n, rs := rs } := by
  simp only [writeTrace, List.append_assoc, List.cons_append, List.nil_append, watch_writeAddress_append, watch_delay_append,
    watch_wrbyteTrace_append, Responder.pulse_register, Responder.pulse_data]
  obtain ⟨n, rs, hstop⟩ := watch_stopTrace_of_boundary []
    (u := { r.selected reg with n := 27, rm := Memory.write r.rm reg.toNat val }) (show 27 % 9 = 0 from rfl) high
  exact ⟨n, rs, hstop⟩

theorem watch_readTrace :
    ∃ n rs, watch (readTrace r.ra reg v a2) high high (.reference r) =
      .reference { r with rp := reg, phase := .off, n := n, rs := rs } := by
  simp only [readTrace, List.append_assoc, List.cons_append, List.nil_append, watch_selectTrace_append, watch_delay_append,
    watch_rdbyteTrace_reading, watch_noackTrace_append, Responder.pulse_noack]
  obtain ⟨n, rs, hstop⟩ := watch_stopTrace_of_boundary []
    (u := { r with rp := reg, phase := .dead, n := 18, rs := 0#8 }) (show 18 % 9 = 0 from rfl) low
  exact ⟨n, rs, hstop⟩

end

/-! ### The transactions with the reference responder -/

theorem State.MemoryInv.wf_of_reference {s : State} {r : Responder} (h : s.MemoryInv) (henv : s.env = .reference r) :
    Memory.wf r.rm = true := by
  rwa [State.MemoryInv, State.memory, henv] at h

/-- A transaction has been answered with a result word and has left a responder behind, the lines idle and the lock free. -/
structure State.Transacted (s : State) (rw : BitVec 32) (r : Responder) (t : State) : Prop where
  env : t.env = .reference r
  slots : t.slots = answered s.issuer rw s.slots
  regd : t.regd = s.regd
  lock : t.lock = false
  linesIdle : t.linesIdle = true
  issuer : t.issuer = s.issuer

theorem State.levels_of_linesIdle {s : State} (h : s.linesIdle = true) : s.sclOut = high ∧ s.sdaOut = high :=
  Bool.and_eq_true_iff.mp h

theorem State.transacted_afterTransaction {s : State} {tr : List Token} {r r' : Responder} (hidle : s.linesIdle = true)
    (henv : s.env = .reference r) (hw : watch tr high high (.reference r) = .reference r') (dev : BitVec 7)
    (reg dat : BitVec 8) (dir : Bool) (rw : BitVec 32) (sr res : BitVec 8) (ack : Level) (fail wstat : Bool) :
    s.Transacted rw r'
      { s.afterTransaction dev reg dat dir rw tr with sr := sr, res := res, ack := ack, fail := fail, wstat := wstat } := by
  obtain ⟨hscl, hsda⟩ := State.levels_of_linesIdle hidle
  have hafter : watch tr s.sclOut s.sdaOut s.env = .reference r' := by rw [hscl, hsda, henv, hw]
  exact ⟨hafter, rfl, rfl, rfl, rfl, rfl⟩

/-- A sample with the lines idle at the start of the trace is the responder's answer (R66, R93). -/
theorem presentedAfter_reference {s : State} {r r' : Responder} {lead : List Token} (hidle : s.linesIdle = true)
    (henv : s.env = .reference r) (hw : watch lead high high (.reference r) = .reference r') :
    presentedAfter s lead = r'.answer := by
  obtain ⟨hscl, hsda⟩ := State.levels_of_linesIdle hidle
  rw [presentedAfter, hscl, hsda, henv, hw]
  rfl

section
variable {s : State} {r : Responder} (reg val v : BitVec 8) (hidle : s.linesIdle = true) (henv : s.env = .reference r)
include hidle henv

theorem presentedAfter_ownAddress :
    presentedAfter s (startTrace ++ wrbyteLead (addressByte r.ra Config.writeBit)) = low := by
  rw [presentedAfter_reference hidle henv (watch_address ..), Responder.answer_ownAddress]

theorem presentedAfter_register :
    presentedAfter s (startTrace ++ wrbyteTrace (addressByte r.ra Config.writeBit) low ++ [Token.t] ++ wrbyteLead reg) =
      low := by
  refine (presentedAfter_reference hidle henv ?_).trans (Responder.answer_register (r := r) (b := high) reg)
  simp only [List.append_assoc, List.cons_append, List.nil_append, watch_writeAddress_append, watch_delay_append,
    watch_wrbyteLead]

theorem presentedAfter_data :
    presentedAfter s (startTrace ++ wrbyteTrace (addressByte r.ra Config.writeBit) low ++ [Token.t] ++
      wrbyteTrace reg low ++ [Token.t] ++ wrbyteLead val) = low := by
  refine (presentedAfter_reference hidle henv ?_).trans (Responder.answer_data (r := r) (b := high) reg val)
  simp only [List.append_assoc, List.cons_append, List.nil_append, watch_writeAddress_append, watch_delay_append,
    watch_wrbyteTrace_append, Responder.pulse_register, watch_wrbyteLead]

theorem presentedAfter_secondAddress :
    presentedAfter s (startTrace ++ wrbyteTrace (addressByte r.ra Config.writeBit) low ++ [Token.t] ++
      wrbyteTrace reg low ++ [Token.t] ++ stopTrace ++ [Token.t] ++ startTrace ++
      wrbyteLead (addressByte r.ra Config.readBit)) = low := by
  refine (presentedAfter_reference hidle henv ?_).trans
    (Responder.answer_ownAddress (r := { r with rp := reg }) (b := high) Config.readBit)
  simp only [List.append_assoc, List.cons_append, List.nil_append, watch_secondStart_append, watch_wrbyteLead]

theorem presentedAfter_readCell {j : Nat} (hj : j < 8) :
    presentedAfter s (selectTrace r.ra reg low low ++ [Token.t] ++ rdbyteLead v j) =
      (Memory.read r.rm reg.toNat).getLsbD (7 - j) := by
  refine (presentedAfter_reference hidle henv ?_).trans
    (Responder.answer_reading (r := { r with rp := reg }) (b := high) hj)
  simp only [List.append_assoc, List.cons_append, List.nil_append, watch_selectTrace_append, watch_delay_append,
    watch_rdbyteLead]

variable (hr : s.regd = true) (hl : s.lock = false)
include hr hl

/-- `WRREG` stores the byte in the register addressed and leaves it selected (R66, R120). -/
theorem exec_wrreg_of_reference :
    ∃ t n rs, exec (.wrreg r.ra reg val) s = .next t ∧ s.Transacted 0x00000000#32
      { r with rm := Memory.write r.rm reg.toNat val, rp := reg, phase := .off, n := n, rs := rs } t := by
  obtain ⟨n, rs, hwatch⟩ := watch_writeTrace r reg val low low
  refine ⟨_, n, rs, exec_wrreg_of_ack (a2 := low) (a3 := low) hr hl (presentedAfter_ownAddress hidle henv)
    (presentedAfter_register reg hidle henv) (presentedAfter_data reg val hidle henv), ?_⟩
  exact State.transacted_afterTransaction hidle henv hwatch ..

/-- `RDREG` answers with the byte of the register addressed and leaves it selected (R66, R121). -/
theorem exec_rdreg_of_reference :
    ∃ t n rs, exec (.rdreg r.ra reg) s = .next t ∧ s.Transacted ((Memory.read r.rm reg.toNat).setWidth 32)
      { r with rp := reg, phase := .off, n := n, rs := rs } t := by
  obtain ⟨v, hbits, hrun⟩ := exec_rdreg_of_second_ack hr hl (presentedAfter_ownAddress hidle henv)
    (presentedAfter_register reg hidle henv) (presentedAfter_secondAddress reg hidle henv) rfl
  have hv : v = Memory.read r.rm reg.toNat := by
    refine BitVec.eq_of_getLsbD_eq fun i hi => ?_
    have hbit := (hbits (7 - i) (by omega)).trans (presentedAfter_readCell reg v hidle henv (by omega))
    rwa [show 7 - (7 - i) = i by omega] at hbit
  obtain ⟨n, rs, hwatch⟩ := watch_readTrace r reg v low
  rw [← hv]
  exact ⟨_, n, rs, hrun, State.transacted_afterTransaction hidle henv hwatch ..⟩

end

/-! ### The transactions with no responder at the address -/

/-- The absent responder is never anything else (R66). -/
theorem watch_absent (tr : List Token) (scl sda : Level) : watch tr scl sda .absent = .absent := by
  induction tr generalizing scl sda with
  | nil => rfl
  | cons tok rest ih => exact ih ..

section
variable {s : State} {dev : BitVec 7} (hidle : s.linesIdle = true)
  (henv : s.env = .absent ∨ ∃ r : Responder, s.env = .reference r ∧ r.ra ≠ dev)
include hidle henv

theorem presentedAfter_otherAddress :
    presentedAfter s (startTrace ++ wrbyteLead (addressByte dev Config.writeBit)) = high := by
  obtain henv | ⟨r, henv, hra⟩ := henv
  · rw [presentedAfter, henv, watch_absent]
    rfl
  · rw [presentedAfter_reference hidle henv (watch_address ..), Responder.takeByte_otherAddress _ hra,
      Responder.rise_of_dead rfl, Responder.answer_of_dead rfl]

/-- A responder at another address keeps its registers over the frame (R66). -/
theorem memory_of_absentTrace {t : State} (ht : t.env = watch (absentTrace dev) s.sclOut s.sdaOut s.env) :
    t.memory = s.memory := by
  obtain ⟨hscl, hsda⟩ := State.levels_of_linesIdle hidle
  rw [hscl, hsda] at ht
  obtain henv | ⟨r, henv, hra⟩ := henv
  · rw [henv, watch_absent] at ht
    rw [State.memory, State.memory, ht, henv]
  · rw [henv, absentTrace, List.append_assoc, watch_startTrace_append, watch_wrbyteTrace_append,
      Responder.takeByte_otherAddress _ hra, Responder.pulse_of_dead rfl] at ht
    have hstop := watch_stopTrace_append { r with phase := .dead, n := 8, rs := addressByte dev Config.writeBit } [] high
    rw [List.append_nil, Responder.rise_of_dead rfl] at hstop
    rw [State.memory, State.memory, ht, hstop, henv]
    rfl

end

end Sys2Proof.Machine

open Sys2Proof Sys2Proof.Machine

/-- Settles O52: all three bytes are acknowledged, and the last is written at the address the second selects. -/
theorem wrregStoresInTheResponder : Obligations.WrregStoresInTheResponder := by
  intro reg val s r hr hl hidle henv hmem
  have hwf := State.MemoryInv.wf_of_reference hmem henv
  obtain ⟨t, n, rs, hrun, ht⟩ := exec_wrreg_of_reference reg val hidle henv hr hl
  exact ⟨t, _, hrun, ht.env, ht.slots, Memory.read_write_same _ val hwf, fun a ha => Memory.read_write_other val ha, rfl,
    rfl, rfl⟩

/-- Settles O53: both frames are acknowledged, and the eight cells present the bits of the register selected. -/
theorem rdregLoadsFromTheResponder : Obligations.RdregLoadsFromTheResponder := by
  intro reg s r hr hl hidle henv
  obtain ⟨t, n, rs, hrun, ht⟩ := exec_rdreg_of_reference reg hidle henv hr hl
  exact ⟨t, _, hrun, ht.env, ht.slots, rfl, rfl, rfl, rfl⟩

/-- Settles O54: the `RDREG` finds the responder as the `WRREG` left it, with the byte stored in the register file. -/
theorem readReturnsTheLastWrite : Obligations.ReadReturnsTheLastWrite := by
  intro reg val s r sl hr hl hidle henv hmem hs
  have hwf := State.MemoryInv.wf_of_reference hmem henv
  obtain ⟨t, n, rs, hwrite, ht⟩ := exec_wrreg_of_reference reg val hidle henv hr hl
  have hwritten := State.slot_of_answered ht.slots hs
  have htake := State.take_of_waiting hwritten rfl
  obtain ⟨t', ht'⟩ : ∃ t', t.take s.issuer = t' := ⟨_, rfl⟩
  rw [ht'] at htake
  have hs' : t'.slot? t'.issuer = some { sl with reqValid := false, rspValid := false, rspRw := 0x00000000#32 } := by
    obtain ⟨hlt, -⟩ := List.getElem?_eq_some_iff.mp hwritten
    rw [htake, State.slot?, ht.issuer]
    exact List.getElem?_set_self hlt
  obtain ⟨u, n', rs', hread, hu⟩ := exec_rdreg_of_reference (s := t')
    (r := { r with rm := Memory.write r.rm reg.toNat val, rp := reg, phase := .off, n := n, rs := rs }) reg
    (by rw [htake]; exact ht.linesIdle) (by rw [htake]; exact ht.env) (by rw [htake]; exact ht.regd.trans hr)
    (by rw [htake]; exact ht.lock)
  have hsame := Memory.read_write_same reg.toNat val hwf
  have hslot := State.slot_of_answered hu.slots hs'
  rw [htake, ht.issuer] at hslot
  refine ⟨t, u, hwrite, ht' ▸ hread, ⟨_, hslot, rfl, congrArg (BitVec.setWidth 32) hsame⟩, ?_, fun a ha => ?_⟩
  · rw [State.memory, hu.env]
    exact hsame
  · rw [State.memory, State.memory, hu.env, henv]
    exact Memory.read_write_other val ha

/-- Settles O55: the address byte is not acknowledged, and the responder has left the frame before any register is written. -/
theorem absentDeviceIsNotFound : Obligations.AbsentDeviceIsNotFound := by
  intro dev reg val s hr hl hidle henv
  have hnack := presentedAfter_otherAddress hidle henv
  obtain ⟨-, hwrite, -, -, -⟩ := wrregWritesOneRegister dev reg val s hr hl
  obtain ⟨-, hread, -, -, -, -⟩ := rdregReadsOneRegister dev reg s hr hl
  refine ⟨⟨_, hwrite hnack, rfl, rfl, rfl, ?_⟩, ⟨_, hread hnack, rfl, rfl, rfl, ?_⟩⟩
  · exact memory_of_absentTrace hidle henv rfl
  · exact memory_of_absentTrace hidle henv rfl

end
